-- ==== Sys2Proof/Word.lean ====
section
/-! DEFINITION. Word.lean: the widths of rule R9 (registers and command words of 32 bits, offsets and bytes of 8,
records of 48, the cycle counter REM of 40). -/

namespace Sys2Proof

/-- A register, or a command word: 32 bits, unsigned (R9, R10). -/
abbrev Word := BitVec 32

/-- A byte to serialise, or an error code (R50, R52). -/
abbrev Byte := BitVec 8

/-- A register offset in bytes (R9, R54). -/
abbrev Offset := BitVec 8

/-- A format T record, the written form of one port transaction (R80, R81). -/
abbrev Record := BitVec 48

/-- The sequencer's cycle counter REM (R9, R49). -/
abbrev Cycles := BitVec 40

end Sys2Proof
end

