-- ==== Sys2Proof/Config.lean ====
section
/-! DEFINITION. Config.lean: the implementation parameters of rule R8, which the model takes as arguments, and the
free values: the inputs nobody has fixed and the level of a line nobody drives. Nothing here has a value a proof
could use beyond the ranges of rule R8. -/

namespace Sys2Proof

/-- The parameters of rule R8 but for `STALL(t)`, which is an input (`Machine.State.stallPlan`).
Log entries 1 and 2. -/
structure Params where
  /-- `T0H_NS`, high-pulse width of a 0 bit in nanoseconds. -/
  t0hNs : Word
  /-- `T0L_NS`, low-pulse width of a 0 bit in nanoseconds. -/
  t0lNs : Word
  /-- `T1H_NS`, high-pulse width of a 1 bit in nanoseconds. -/
  t1hNs : Word
  /-- `T1L_NS`, low-pulse width of a 1 bit in nanoseconds. -/
  t1lNs : Word
  /-- `RES_US`, minimum latch duration in microseconds. -/
  resUs : Word
  /-- `SET_CYCLES`, clock cycles of one set-level. -/
  setCycles : Fin 256
  /-- `ITER_CYCLES`, clock cycles of one busy-loop iteration. -/
  iterCycles : Fin 256
  /-- `CAL_CYCLES`, clock cycles of the `CAL` computation. -/
  calCycles : Fin 1099511627776
  /-- Numerator of `F_TRUE`, the real frequency of `clk` in hertz. -/
  fTrueNum : Nat
  /-- Denominator of `F_TRUE`. -/
  fTrueDen : Nat
  /-- `BASE`, where the platform maps the register block; no rule depends on it. -/
  base : Nat
  deriving DecidableEq, Repr

/-- The largest value REM can hold by rule R49, `(2^32 - 1) * 255`. -/
abbrev Params.maxRem : Nat := 4294967295 * 255

/-- The ranges of rule R8 (premise (f) of rule R224). That `CAL_CYCLES` fits REM is read from rule R49
(log entry 2). -/
structure Params.InRange (p : Params) : Prop where
  t0h : p.t0hNs ≠ 0#32
  t0l : p.t0lNs ≠ 0#32
  t1h : p.t1hNs ≠ 0#32
  t1l : p.t1lNs ≠ 0#32
  res : p.resUs ≠ 0#32
  set : 1 ≤ p.setCycles.val
  iter : 1 ≤ p.iterCycles.val
  cal : 1 ≤ p.calCycles.val
  calFits : p.calCycles.val ≤ Params.maxRem
  fTrue : 0 < p.fTrueNum
  fTrueDen : 0 < p.fTrueDen

/-- The reference values of rule R8, used by the derived vectors of `95_test_vectors.md` and by this package's tests,
nowhere in the machine. -/
def Params.reference : Params where
  t0hNs := 350
  t0lNs := 800
  t1hNs := 700
  t1lNs := 600
  resUs := 50
  setCycles := 1
  iterCycles := 1
  calCycles := 1
  fTrueNum := 64000000
  fTrueDen := 1
  base := 0

/-! ### The parameters of the block itself: open, each one less than its value, in the range of rule R8 -/

opaque Config.t0hNsPred : Fin 4294967295
opaque Config.t0lNsPred : Fin 4294967295
opaque Config.t1hNsPred : Fin 4294967295
opaque Config.t1lNsPred : Fin 4294967295
opaque Config.resUsPred : Fin 4294967295
opaque Config.setCyclesPred : Fin 255
opaque Config.iterCyclesPred : Fin 255
opaque Config.calCyclesPred : Fin 1095216660225
opaque Config.fTrueNumPred : Nat
opaque Config.fTrueDenPred : Nat
opaque Config.base : Nat

/-- The parameters of the block: OPEN in rule R8, so nothing but their ranges is known of them. -/
def Config.params : Params where
  t0hNs := BitVec.ofNat 32 (Config.t0hNsPred.val + 1)
  t0lNs := BitVec.ofNat 32 (Config.t0lNsPred.val + 1)
  t1hNs := BitVec.ofNat 32 (Config.t1hNsPred.val + 1)
  t1lNs := BitVec.ofNat 32 (Config.t1lNsPred.val + 1)
  resUs := BitVec.ofNat 32 (Config.resUsPred.val + 1)
  setCycles := ⟨Config.setCyclesPred.val + 1, by omega⟩
  iterCycles := ⟨Config.iterCyclesPred.val + 1, by omega⟩
  calCycles := ⟨Config.calCyclesPred.val + 1, by omega⟩
  fTrueNum := Config.fTrueNumPred + 1
  fTrueDen := Config.fTrueDenPred + 1
  base := Config.base

/-! ### Free values -/

/-- The `stall` input of a cycle the environment's plan does not reach (R8: "a draw"; U1). Log entry 3. -/
opaque Config.stallDraw : Nat → Bool

/-- The `rst` input of a cycle the environment's plan does not reach (R57, R220). Log entry 4. -/
opaque Config.rstDraw : Nat → Bool

/-- The level of the physical line in a cycle in which the block does not drive it (R51: "a model must treat it as
unknown"). Log entry 5. -/
opaque Config.floatingLine : Nat → Bool

/-- The level of the physical line in a cycle in which another agent drives it: R231 says that this breaks every rule, and
gives no level. Log entry 20. -/
opaque Config.contestedLine : Nat → Bool

/-- `req_write` in a cycle with `req_valid = 0`, of which R53 says nothing. Log entry 16. -/
opaque Config.idleReqWrite : Nat → Bool

/-- `req_addr` in a cycle with `req_valid = 0`, of which R53 says nothing. Log entry 16. -/
opaque Config.idleReqAddr : Nat → Offset

/-- `req_wdata` in a cycle with `req_valid = 0`, of which R53 says nothing, or with a `RD`, where it is ignored (R53).
Log entry 16. -/
opaque Config.idleReqWdata : Nat → Word

/-- `resp_err` in a cycle with `resp_valid = 0`: R53 gives it only with `resp_valid`. Log entry 16. -/
opaque Config.idleRespErr : Nat → Bool

/-- `resp_rdata` in a cycle with `resp_valid = 0`: R53 gives it only with `resp_valid`. Log entry 16. -/
opaque Config.idleRespRdata : Nat → Word

end Sys2Proof
end

