-- ==== Sys2Proof/Syntax.lean ====
section
/-! DEFINITION. Syntax.lean: the eight operations of the opcode map (R84), one constructor per row. -/

namespace Sys2Proof

/-- The operations a host performs on the block (R3, R84): two port transactions and six commands.
The operands are those of rule R83, already taken out of the record or the command word. -/
inductive Instr where
  /-- `RD off` (R101): read the register at the byte offset `off`. -/
  | rd (off : Offset)
  /-- `WR off, data` (R102): write a register. With `off = 0x00` it stands for a `WR` to CMD whose command word
  `data` is illegal (R85): a legal one is the command itself (R84, R103). -/
  | wr (off : Offset) (data : Word)
  /-- `CAL` (R126): run the Tick Calibrator once. -/
  | cal
  /-- `INIT` (R155): take the pin and force it low. -/
  | init
  /-- `CONV` (R129): convert the duration in CONV_NS. -/
  | conv
  /-- `BIT b` (R156): emit one data bit. -/
  | bit (b : Bool)
  /-- `BYTE v` (R157): emit eight data bits, most significant first. -/
  | byte (v : Byte)
  /-- `LATCH` (R158): hold the line low for the reset duration. -/
  | latch
  deriving DecidableEq, Repr

end Sys2Proof
end

