-- ==== Sys2Proof/WellFormed.lean ====
section
/-! DEFINITION. WellFormed.lean: which terms of `Instr` stand for a transaction. The format C rows of the opcode map
are written here as the mask and match words of rule R84, independently of the decoder, which follows the
field checks of rule R103. -/

namespace Sys2Proof

/-- One format C row of the opcode map (R84): a word `w` is the row's if `w &&& mask = value`. -/
structure CommandRow where
  mnemonic : String
  value : Word
  mask : Word
  deriving DecidableEq, Repr

/-- The row's words. -/
def CommandRow.covers (r : CommandRow) (w : Word) : Bool := w &&& r.mask == r.value

/-- The six format C rows of the opcode map (R84, `spec/opcode_table.json`). -/
def commandRows : List CommandRow :=
  [⟨"CAL", 0x01000000#32, 0xFFFFFFFF#32⟩, ⟨"INIT", 0x02000000#32, 0xFFFFFFFF#32⟩, ⟨"CONV", 0x03000000#32, 0xFFFFFFFF#32⟩,
   ⟨"BIT", 0x10000000#32, 0xFFFFFFFE#32⟩, ⟨"BYTE", 0x11000000#32, 0xFFFFFF00#32⟩, ⟨"LATCH", 0x12000000#32, 0xFFFFFFFF#32⟩]

/-- A command word that some format C row covers; every other word is illegal (R85). -/
def isCommandWord (w : Word) : Bool := commandRows.any (·.covers w)

/-- Every operand value is admitted (R83), and a `WR` to CMD is never the generic `WR` when its data is a legal
command word (R84: "such a `WR` is never treated by the generic `WR` row"). -/
def Instr.wellFormed : Instr → Bool
  | .rd _ => true
  | .wr off data => off != 0#8 || !isCommandWord data
  | .cal => true
  | .init => true
  | .conv => true
  | .bit _ => true
  | .byte _ => true
  | .latch => true

end Sys2Proof
end

