-- ==== Sys2Proof/Decode.lean ====
section
/-! DEFINITION. Decode.lean: the decoder of format T records and format C command words (R80 to R87), total and
refusing by name, and after it the encoder, written from the same formats. -/

namespace Sys2Proof

/-- Why a 48-bit record is not a transaction (R81). A property of the record format, not of the hardware. -/
inductive DecodeError where
  /-- A bit of the field `zero`, 47:41, is set. -/
  | zeroFieldSet
  /-- A `RD` record carries non-zero `data`. -/
  | readWithData
  deriving DecidableEq, Repr

/-! ### The fields of the two formats -/

/-- Bits 47:41 of a record, must be 0 (R81). -/
def Record.zeroField (r : Record) : BitVec 7 := r.extractLsb' 41 7

/-- Bit 40 of a record: 1 for `WR`, 0 for `RD` (R81). -/
def Record.isWrite (r : Record) : Bool := r.getLsbD 40

/-- Bits 39:32 of a record: the register offset (R81). -/
def Record.off (r : Record) : Offset := r.extractLsb' 32 8

/-- Bits 31:0 of a record: the data of a `WR` (R81). -/
def Record.data (r : Record) : Word := r.extractLsb' 0 32

/-- Bits 31:24 of a command word (R82). -/
def Word.op (cw : Word) : BitVec 8 := cw.extractLsb' 24 8

/-- Bits 23:8 of a command word, reserved (R82). -/
def Word.rsv (cw : Word) : BitVec 16 := cw.extractLsb' 8 16

/-- Bits 7:0 of a command word (R82). -/
def Word.imm8 (cw : Word) : BitVec 8 := cw.extractLsb' 0 8

/-! ### Decoding -/

/-- The command a format C word stands for, by the checks of step 2 of rule R103; `none` is an illegal word (R85).
`BIT` takes `imm8[0]` and needs `imm8[7:1] = 0`; the operand-less commands need `imm8 = 0` (R83). -/
def decodeCommand (cw : Word) : Option Instr :=
  if Word.rsv cw ≠ 0#16 then none
  else if Word.op cw = 0x11#8 then some (.byte (Word.imm8 cw))
  else if Word.op cw = 0x10#8 then
    if (Word.imm8 cw).extractLsb' 1 7 ≠ 0#7 then none else some (.bit ((Word.imm8 cw).getLsbD 0))
  else if Word.imm8 cw ≠ 0#8 then none
  else if Word.op cw = 0x01#8 then some .cal
  else if Word.op cw = 0x02#8 then some .init
  else if Word.op cw = 0x03#8 then some .conv
  else if Word.op cw = 0x12#8 then some .latch
  else none

/-- The operation of a `WR` (R84): to offset `0x00` the command its data stands for, if any; else the generic `WR`. -/
def decodeWrite (off : Offset) (data : Word) : Instr :=
  if off = 0#8 then (decodeCommand data).getD (.wr off data) else .wr off data

/-- The operation a record stands for (R81, R84). -/
def decode (r : Record) : Except DecodeError Instr :=
  if Record.zeroField r ≠ 0#7 then .error .zeroFieldSet
  else if Record.isWrite r then .ok (decodeWrite (Record.off r) (Record.data r))
  else if Record.data r ≠ 0#32 then .error .readWithData
  else .ok (.rd (Record.off r))

/-! ### Encoding -/

/-- A `WR` record (R81). -/
def writeRecord (off : Offset) (data : Word) : Record := (0#7 ++ 1#1) ++ off ++ data

/-- A `RD` record (R81). -/
def readRecord (off : Offset) : Record := (0#7 ++ 0#1) ++ off ++ 0#32

/-- A command word in format C (R82), reserved bits 0. -/
def commandWord (op : BitVec 8) (imm8 : BitVec 8) : Word := op ++ 0#16 ++ imm8

/-- The record of a command: a `WR` of its word to offset `0x00` (R84). -/
def commandRecord (op : BitVec 8) (imm8 : BitVec 8) : Record := writeRecord 0#8 (commandWord op imm8)

/-- The record of an operation (R81, R82, R84). -/
def encode : Instr → Record
  | .rd off => readRecord off
  | .wr off data => writeRecord off data
  | .cal => commandRecord 0x01#8 0#8
  | .init => commandRecord 0x02#8 0#8
  | .conv => commandRecord 0x03#8 0#8
  | .bit b => commandRecord 0x10#8 (0#7 ++ BitVec.ofBool b)
  | .byte v => commandRecord 0x11#8 v
  | .latch => commandRecord 0x12#8 0#8

/-! ### The opcode table's numbering -/

/-- The record of a table word: a format C row has 32 bits and is the data of a `WR` to offset `0x00` (R80, R84);
a format T row has 48 and is the record itself. -/
def tableRecord (nbits w : Nat) : Record :=
  if nbits ≤ 32 then writeRecord 0#8 (BitVec.ofNat 32 w) else BitVec.ofNat 48 w

/-- The operation this decoder reads from the bits of an opcode-table word. -/
def decodeTableWord (nbits w : Nat) : Option Instr :=
  match decode (tableRecord nbits w) with
  | .ok i => some i
  | .error _ => none

end Sys2Proof
end

