-- ==== Sys2Proof/Machine/State.lean ====
section
/-! DEFINITION. Machine/State.lean: the state of the block (R21 to R52), the response of its port (R105), and the
inputs of the host and the environment (R20, R53) as plain data; the reset state (R56); the reasons a step stops. -/

namespace Sys2Proof.Machine

/-- The lifecycle state LC (R47). -/
inductive Lifecycle where
  | uncal
  | cald
  | ready
  | fault
  deriving DecidableEq, Repr

/-- The sequencer phase PHASE (R48). -/
inductive Phase where
  /-- IDLE: the port is ready. -/
  | idle
  /-- CALC: the calibrator computes. -/
  | calculate
  /-- SETI: `INIT` is setting the pin low and enabling the output. -/
  | seti
  /-- SETH: a set-high is in progress. -/
  | seth
  /-- SPINH: the high pulse is being timed. -/
  | spinh
  /-- SETL: a set-low is in progress. -/
  | setl
  /-- SPINL: the low pulse is being timed. -/
  | spinl
  /-- SPINR: the latch delay is being timed. -/
  | spinr
  deriving DecidableEq, Repr

/-- The causes of a fatal configuration error (R127, R193). -/
inductive FatalCause where
  | clkZero
  | fudgeInvalid
  | countZero
  | countOverflow
  deriving DecidableEq, Repr

/-- The causes of a refusal (R193). -/
inductive RefuseCause where
  | badOffset
  | roWrite
  | lockedWrite
  | illegalCmd
  | badState
  | convRange
  deriving DecidableEq, Repr

/-- The 21 host-visible registers (R21, R61). -/
inductive Reg where
  | cmd
  | status
  | err
  | clkhz
  | fudgeNum
  | fudgeDen
  | t0hNs
  | t0lNs
  | t1hNs
  | t1lNs
  | resUs
  | tfNum
  | tfDen
  | cntT0h
  | cntT0l
  | cntT1h
  | cntT1l
  | cntRes
  | convNs
  | convIters
  | id
  deriving DecidableEq, Repr

/-- A response of the port (R105): `err = false` is OK, `err = true` is ERR; `rdata` is the read data. -/
structure Response where
  err : Bool
  rdata : Word
  deriving DecidableEq, Repr

/-- What the host does in a cycle in which the port is ready (R100): leave it idle, or present a transaction,
written as a format T record (R80). -/
inductive HostItem where
  | idle
  | txn (r : Record)
  deriving DecidableEq, Repr

/-- The state of the machine: the block, and what its agents will do next.
CMD stores nothing (R22), STATUS and ERR mirror `lc`, `pin`, `pinOe`, `fcode`, `lcode` (R23, R24), the timing registers
read `params` (R28 to R32) and ID is a constant (R43), so none of them has a field. -/
structure State where
  /-- The implementation parameters (R8), constant. -/
  params : Params
  /-- CLKHZ (R25). -/
  clkhz : Word
  /-- FUDGE_NUM (R26). -/
  fudgeNum : Word
  /-- FUDGE_DEN (R27). -/
  fudgeDen : Word
  /-- TF_NUM (R33). -/
  tfNum : Word
  /-- TF_DEN (R34). -/
  tfDen : Word
  /-- CNT_T0H (R35). -/
  cntT0h : Word
  /-- CNT_T0L (R36). -/
  cntT0l : Word
  /-- CNT_T1H (R37). -/
  cntT1h : Word
  /-- CNT_T1L (R38). -/
  cntT1l : Word
  /-- CNT_RES (R39). -/
  cntRes : Word
  /-- CONV_NS (R40). -/
  convNs : Word
  /-- CONV_ITERS (R41). -/
  convIters : Word
  /-- LC (R47). -/
  lc : Lifecycle
  /-- PHASE (R48). -/
  phase : Phase
  /-- REM (R49). -/
  rem : Cycles
  /-- CURBIT (R50). -/
  curbit : Bool
  /-- SHIFT (R50). -/
  shift : Byte
  /-- NBITS (R50). -/
  nbits : BitVec 3
  /-- PIN (R51). -/
  pin : Bool
  /-- PIN_OE (R51). -/
  pinOe : Bool
  /-- FCODE (R52). -/
  fcode : Byte
  /-- LCODE (R52). -/
  lcode : Byte
  /-- The response the last cycle gave, if it gave one (R105, log entry 6). -/
  resp : Option Response
  /-- What the host will do, oldest first (R20, R100, log entry 7). -/
  host : List HostItem
  /-- The `stall` input of the coming cycles, as far as the environment has fixed it (R53, log entry 3). -/
  stallPlan : List Bool
  /-- The `rst` input of the coming cycles, as far as the environment has fixed it (R53, log entry 4). -/
  rstPlan : List Bool
  /-- The cycles stepped so far, which index the free values (log entries 3, 4, 5). -/
  tick : Nat
  deriving DecidableEq, Repr

/-- The machine right after reset: the table of rule R56, the parameters of the block, and no input fixed. -/
def State.reset : State where
  params := Config.params
  clkhz := 0#32
  fudgeNum := 1#32
  fudgeDen := 1#32
  tfNum := 0#32
  tfDen := 0#32
  cntT0h := 0#32
  cntT0l := 0#32
  cntT1h := 0#32
  cntT1l := 0#32
  cntRes := 0#32
  convNs := 0#32
  convIters := 0#32
  lc := .uncal
  phase := .idle
  rem := 0#40
  curbit := false
  shift := 0#8
  nbits := 0#3
  pin := false
  pinOe := false
  fcode := 0#8
  lcode := 0#8
  resp := none
  host := []
  stallPlan := []
  rstPlan := []
  tick := 0

/-- Why the machine stops. -/
inductive Fault where
  /-- Raised by `CONV` only, in a state whose divisor `TF_DEN * FUDGE_DEN` is 0. No run reaches one (R55 item 4,
  R129: "The divisor cannot be 0 in `CALD` or `READY`") and `div` has no value there (R16). Safe: the model stops where
  the spec gives no quotient. Log entry 8. -/
  | zeroDivisor
  deriving DecidableEq, Repr

/-- Why the model gives a host's input no meaning. -/
inductive Refusal where
  /-- Raised by an arm of `exec` whose instruction has no meaning yet; no arm does. Safe. -/
  | notModelled (mnemonic : String)
  /-- Raised by `step` when the host presents a record that is no transaction (R81: "a model's decoder refuses it as
  malformed input"). Safe: on the hardware those bits do not exist. Log entry 9. -/
  | malformedRecord (why : DecodeError)
  deriving DecidableEq, Repr

/-- What a meaning or a step answers. -/
abbrev Answer := Host.Outcome State Fault Refusal

end Sys2Proof.Machine
end

