-- ==== Sys2Proof/Machine/Operands.lean ====
section
/-! DEFINITION. Machine/Operands.lean: what an operand names. An offset names a register by the address map (R61), a
data bit names its two counts (R154, R159), a byte names the bit sent first (R157). -/

namespace Sys2Proof.Machine

/-- The register's offset (R22 to R43, R61). -/
def Reg.offset : Reg → Offset
  | .cmd => 0x00#8
  | .status => 0x04#8
  | .err => 0x08#8
  | .clkhz => 0x0C#8
  | .fudgeNum => 0x10#8
  | .fudgeDen => 0x14#8
  | .t0hNs => 0x18#8
  | .t0lNs => 0x1C#8
  | .t1hNs => 0x20#8
  | .t1lNs => 0x24#8
  | .resUs => 0x28#8
  | .tfNum => 0x2C#8
  | .tfDen => 0x30#8
  | .cntT0h => 0x34#8
  | .cntT0l => 0x38#8
  | .cntT1h => 0x3C#8
  | .cntT1l => 0x40#8
  | .cntRes => 0x44#8
  | .convNs => 0x48#8
  | .convIters => 0x4C#8
  | .id => 0x50#8

/-- The registers in the order of the address map (R61). -/
def Reg.all : List Reg :=
  [.cmd, .status, .err, .clkhz, .fudgeNum, .fudgeDen, .t0hNs] ++ [.t0lNs, .t1hNs, .t1lNs, .resUs, .tfNum, .tfDen, .cntT0h]
    ++ [.cntT0l, .cntT1h, .cntT1l, .cntRes, .convNs, .convIters, .id]

/-- The register at an offset; `none` for a misaligned (R64) or unmapped (R67) one. -/
def regAt (off : Offset) : Option Reg := Reg.all.find? (fun r => r.offset == off)

/-- CH(b): the count that times the high pulse of a bit (R154). -/
def State.highCount (s : State) (b : Bool) : Word := if b then s.cntT1h else s.cntT0h

/-- CL(b): the count that times the low pulse of a bit (R154). -/
def State.lowCount (s : State) (b : Bool) : Word := if b then s.cntT1l else s.cntT0l

/-- The bit of a byte that is sent first, bit 7 (R72, R157). -/
def firstBit (v : Byte) : Bool := v.getLsbD 7

/-- SHIFT once its first bit has been sent: `{SHIFT[6:0], 0}` (R154). -/
def shiftOut (v : Byte) : Byte := v.extractLsb' 0 7 ++ 0#1

end Sys2Proof.Machine
end

