-- ==== Sys2Proof/Machine/Flags.lean ====
section
/-! DEFINITION. Machine/Flags.lean: the status bits. The block has no arithmetic flags (R45); its status bits are the
fields of STATUS (R23) and ERR (R24), packed here, and the error codes they carry (R193). -/

namespace Sys2Proof.Machine

/-- The code written to FCODE (R193). -/
def FatalCause.code : FatalCause → Byte
  | .clkZero => 0x01#8
  | .fudgeInvalid => 0x02#8
  | .countZero => 0x03#8
  | .countOverflow => 0x04#8

/-- The code written to LCODE (R193). -/
def RefuseCause.code : RefuseCause → Byte
  | .badOffset => 0x10#8
  | .roWrite => 0x11#8
  | .lockedWrite => 0x12#8
  | .illegalCmd => 0x13#8
  | .badState => 0x14#8
  | .convRange => 0x15#8

/-- The value of STATUS.LC (R23, R47). -/
def Lifecycle.code : Lifecycle → BitVec 2
  | .uncal => 0#2
  | .cald => 1#2
  | .ready => 2#2
  | .fault => 3#2

/-- STATUS as a `RD` returns it (R23, R101). -/
def State.statusWord (s : State) : Word :=
  0#26 ++ BitVec.ofBool s.pinOe ++ BitVec.ofBool s.pin ++ 0#2 ++ s.lc.code

/-- ERR as a `RD` returns it (R24, R101). -/
def State.errWord (s : State) : Word := 0#16 ++ s.lcode ++ s.fcode

/-- The `np` output as PHASE decides it (R163). -/
def Phase.np : Phase → Bool
  | .idle => false
  | .calculate => false
  | .seti => true
  | .seth => true
  | .spinh => true
  | .setl => true
  | .spinl => true
  | .spinr => true

end Sys2Proof.Machine
end

