-- ==== Sys2Proof/Machine/Ops.lean ====
section
/-! DEFINITION. Machine/Ops.lean: the operations the meanings share: the inputs of a cycle, the register file, the
responses, the two ways an operation reports an error (R191, R192), the start of a segment, and reset (R220). -/

namespace Sys2Proof.Machine

/-! ### The inputs (R53, R57) -/

/-- The `rst` input of the `k`-th coming cycle: the plan's, else a draw (log entry 4). -/
def State.rstAt (s : State) (k : Nat) : Bool := (s.rstPlan[k]?).getD (Config.rstDraw (s.tick + k))

/-- The `stall` input of the `k`-th coming cycle: the plan's, else a draw (R8, U1, log entry 3). -/
def State.stallAt (s : State) (k : Nat) : Bool := (s.stallPlan[k]?).getD (Config.stallDraw (s.tick + k))

/-- A cycle has been spent: its inputs are used up, and the response it showed is gone (log entry 6). -/
def State.spend (s : State) : State :=
  { s with resp := none, rstPlan := s.rstPlan.tail, stallPlan := s.stallPlan.tail, tick := s.tick + 1 }

/-! ### The register file (R21, R61) -/

/-- ID (R43): architecture version 1 of the block (R2). -/
def idWord : Word := 0x42505401#32

/-- The value a `RD` of the register returns (R101). -/
def State.readReg (s : State) : Reg → Word
  | .cmd => 0#32
  | .status => s.statusWord
  | .err => s.errWord
  | .clkhz => s.clkhz
  | .fudgeNum => s.fudgeNum
  | .fudgeDen => s.fudgeDen
  | .t0hNs => s.params.t0hNs
  | .t0lNs => s.params.t0lNs
  | .t1hNs => s.params.t1hNs
  | .t1lNs => s.params.t1lNs
  | .resUs => s.params.resUs
  | .tfNum => s.tfNum
  | .tfDen => s.tfDen
  | .cntT0h => s.cntT0h
  | .cntT0l => s.cntT0l
  | .cntT1h => s.cntT1h
  | .cntT1l => s.cntT1l
  | .cntRes => s.cntRes
  | .convNs => s.convNs
  | .convIters => s.convIters
  | .id => idWord

/-- The byte a byte-addressed bus finds at `off + k` where a platform bridges the port onto one: little-endian
(R62). -/
def State.bridgeByte (s : State) (r : Reg) (k : Fin 4) : Byte := (s.readReg r).extractLsb' (8 * k.val) 8

/-- The address the platform gives the register (R8 `BASE`, R60). -/
def State.busAddress (s : State) (r : Reg) : Nat := s.params.base + r.offset.toNat

/-! ### Responses and errors (R105, R191, R192) -/

/-- The response OK with read data (R105). -/
def okWith (v : Word) : Option Response := some ⟨false, v⟩

/-- The response ERR: its read data is 0 (R105, R192). -/
def errResponse : Option Response := some ⟨true, 0#32⟩

/-- Answer OK with read data 0, what a successful operation other than `RD` gets (R105). -/
def State.respondOk (s : State) : State := { s with resp := okWith 0#32 }

/-- `raise Refuse(code)` (R14, R192): the response is ERR and LCODE takes the code; nothing else changes. -/
def State.refuse (s : State) (c : RefuseCause) : State := { s with lcode := c.code, resp := errResponse }

/-- `raise Fatal(code)` (R14, R126, R191): FCODE takes the code, LC becomes FAULT, the sequencer is idle and the
response is ERR; nothing else changes. There is no return but reset (R198). -/
def State.fatal (s : State) (c : FatalCause) : State :=
  { s with fcode := c.code, lc := .fault, phase := .idle, rem := 0#40, resp := errResponse }

/-! ### Segments (R15, R19) -/

/-- `PHASE <- p; REM <- n`: the sequencer starts a segment (R15). Nothing is answered yet (R105). -/
def State.startSegment (s : State) (p : Phase) (n : Nat) : State :=
  { s with phase := p, rem := BitVec.ofNat 40 n, resp := none }

/-- `PHASE <- IDLE; REM <- 0` with response OK: the end of an admitted command (R105, R154). -/
def State.complete (s : State) : State := { s with phase := .idle, rem := 0#40, resp := okWith 0#32 }

/-- The cycles of one set-level segment, SET_CYCLES (R151). -/
def State.setLength (s : State) : Nat := s.params.setCycles.val

/-- The cycles of a spin of `n` iterations, `n * ITER_CYCLES` (R152). -/
def State.spinLength (s : State) (n : Word) : Nat := n.toNat * s.params.iterCycles.val

/-! ### Reset (R220 to R222) -/

/-- Every piece of the block's state at its reset value (R56), at once and whatever was running (R222). The parameters
are constants; the inputs are not the block's. -/
def State.inReset (s : State) : State :=
  { State.reset with
    params := s.params, host := s.host, stallPlan := s.stallPlan, rstPlan := s.rstPlan, tick := s.tick }

end Sys2Proof.Machine
end

