-- ==== Sys2Proof/Machine/Calibrator.lean ====
section
/-! DEFINITION. Machine/Calibrator.lean: the Tick Calibrator (R120 to R133): its arithmetic, over the naturals and
exact (R128), and the commands `CAL` and `CONV`. -/

namespace Sys2Proof.Machine

/-! ### Arithmetic (R16, R121, R122) -/

/-- One second in nanoseconds (R9). -/
def nsPerS : Nat := 1000000000

/-- `a cdiv b` (R16): the ceiling of the exact quotient, for `b > 0`. -/
def cdiv (a b : Nat) : Nat := (a + b - 1) / b

/-- TF_NUM for a clock of `c` hertz (R121). -/
def tickNum (c : Nat) : Nat := c / Nat.gcd c nsPerS

/-- TF_DEN for a clock of `c` hertz (R121). -/
def tickDen (c : Nat) : Nat := nsPerS / Nat.gcd c nsPerS

/-- ITERS(d) (R122) for the TickFactor `num / den` and the fudge factor `fn / fd`: one floor, at the end. -/
def iters (num den fn fd d : Nat) : Nat := d * num * fn / (den * fd)

/-- ITERS_UP(d) (R122): the ceiling of the same quotient. -/
def itersUp (num den fn fd d : Nat) : Nat := cdiv (d * num * fn) (den * fd)

/-- What a successful calibration computes (R126), before it is stored in 32 bits. -/
structure Calibration where
  num : Nat
  den : Nat
  h0 : Nat
  l0 : Nat
  h1 : Nat
  l1 : Nat
  rs : Nat
  deriving DecidableEq, Repr

/-- The counts of rules R124 and R125 for a clock `c` and a fudge factor `fn / fd`. -/
def counts (p : Params) (c fn fd : Nat) : Calibration where
  num := tickNum c
  den := tickDen c
  h0 := iters (tickNum c) (tickDen c) fn fd p.t0hNs.toNat
  l0 := iters (tickNum c) (tickDen c) fn fd p.t0lNs.toNat
  h1 := iters (tickNum c) (tickDen c) fn fd p.t1hNs.toNat
  l1 := iters (tickNum c) (tickDen c) fn fd p.t1lNs.toNat
  rs := itersUp (tickNum c) (tickDen c) fn fd (p.resUs.toNat * 1000)

/-- One of the four pulse counts is 0 (R127 order 3). -/
def Calibration.someZero (k : Calibration) : Bool := k.h0 == 0 || k.l0 == 0 || k.h1 == 0 || k.l1 == 0

/-- One of the five counts does not fit 32 bits (R127 order 4). -/
def Calibration.someOverflow (k : Calibration) : Bool :=
  2 ^ 32 ≤ k.h0 || 2 ^ 32 ≤ k.l0 || 2 ^ 32 ≤ k.h1 || 2 ^ 32 ≤ k.l1 || 2 ^ 32 ≤ k.rs

/-- The computation of `CAL` (R126): the four fatal causes in the order of rule R127, else the results. -/
def calibrate (p : Params) (c fn fd : Nat) : Except FatalCause Calibration :=
  if c = 0 then .error .clkZero
  else if fn = 0 ∨ fd = 0 then .error .fudgeInvalid
  else if (counts p c fn fd).someZero then .error .countZero
  else if (counts p c fn fd).someOverflow then .error .countOverflow
  else .ok (counts p c fn fd)

/-- The calibration the state's configuration gives. -/
def State.calibration (s : State) : Except FatalCause Calibration :=
  calibrate s.params s.clkhz.toNat s.fudgeNum.toNat s.fudgeDen.toNat

/-! ### CAL (R126) -/

/-- `CAL` at acceptance: admitted in UNCAL only (R104); `PHASE <- CALC; REM <- CAL_CYCLES`. -/
def execCal (s : State) : Answer :=
  if s.lc = .uncal then .next (s.startSegment .calculate s.params.calCycles.val) else .next (s.refuse .badState)

/-- The seven result registers take a calibration's results (R126). -/
def State.storeResults (s : State) (k : Calibration) : State :=
  { s with
    tfNum := BitVec.ofNat 32 k.num, tfDen := BitVec.ofNat 32 k.den, cntT0h := BitVec.ofNat 32 k.h0
    cntT0l := BitVec.ofNat 32 k.l0, cntT1h := BitVec.ofNat 32 k.h1, cntT1l := BitVec.ofNat 32 k.l1
    cntRes := BitVec.ofNat 32 k.rs }

/-- `CAL` at the end of its CALC segment (R126, R154): the results and CALD, or a fatal error. -/
def finishCal (s : State) : State :=
  match s.calibration with
  | .ok k => { s.storeResults k with lc := .cald }.complete
  | .error c => s.fatal c

/-! ### CONV (R129) -/

/-- The quotient `CONV` computes (R129). -/
def State.convQuotient (s : State) : Nat :=
  iters s.tfNum.toNat s.tfDen.toNat s.fudgeNum.toNat s.fudgeDen.toNat s.convNs.toNat

/-- `CONV`: admitted in CALD and READY (R104); CONV_ITERS takes the floor, or the result is out of range. -/
def execConv (s : State) : Answer :=
  if s.lc = .cald ∨ s.lc = .ready then
    if s.tfDen.toNat * s.fudgeDen.toNat = 0 then .fault .zeroDivisor
    else if 2 ^ 32 ≤ s.convQuotient then .next (s.refuse .convRange)
    else .next { s with convIters := BitVec.ofNat 32 s.convQuotient }.respondOk
  else .next (s.refuse .badState)

end Sys2Proof.Machine
end

