-- ==== Sys2Proof/Machine/Encoder.lean ====
section
/-! DEFINITION. Machine/Encoder.lean: the Bit Encoder's commands at acceptance: `INIT`, `BIT`, `BYTE`, `LATCH`
(R155 to R158). What follows an acceptance, cycle by cycle, is in Machine/Sequencer.lean. -/

namespace Sys2Proof.Machine

/-- `INIT` at acceptance (R155): admitted in CALD only; `PHASE <- SETI; REM <- SET_CYCLES`. -/
def execInit (s : State) : Answer :=
  if s.lc = .cald then .next (s.startSegment .seti s.setLength) else .next (s.refuse .badState)

/-- The first set-high of a pulse command: CURBIT, SHIFT and NBITS are written and SETH starts (R156, R157). -/
def State.startPulses (s : State) (first : Bool) (rest : Byte) (more : BitVec 3) : State :=
  { s with curbit := first, shift := rest, nbits := more }.startSegment .seth s.setLength

/-- `BIT b` at acceptance (R156): admitted in READY only; one bit, SHIFT and NBITS 0. -/
def execBit (b : Bool) (s : State) : Answer :=
  if s.lc = .ready then .next (s.startPulses b 0#8 0#3) else .next (s.refuse .badState)

/-- `BYTE v` at acceptance (R157): admitted in READY only; bit 7 first and seven more to follow. -/
def execByte (v : Byte) (s : State) : Answer :=
  if s.lc = .ready then .next (s.startPulses (firstBit v) v 7#3) else .next (s.refuse .badState)

/-- `LATCH` at acceptance (R158): admitted in READY only; `PHASE <- SPINR; REM <- CNT_RES * ITER_CYCLES`. -/
def execLatch (s : State) : Answer :=
  if s.lc = .ready then .next (s.startSegment .spinr (s.spinLength s.cntRes)) else .next (s.refuse .badState)

end Sys2Proof.Machine
end

