-- ==== Sys2Proof/Machine/Port.lean ====
section
/-! DEFINITION. Machine/Port.lean: the port transactions `RD` (R101) and `WR` (R102), and the dispatch of a command word
(R103). -/

namespace Sys2Proof.Machine

/-- `RD off` (R101): the register's value with response OK, or BAD_OFFSET. -/
def execRd (off : Offset) (s : State) : Answer :=
  match regAt off with
  | some r => .next { s with resp := okWith (s.readReg r) }
  | none => .next (s.refuse .badOffset)

/-- A `WR` to CMD (R103): the command of a legal word runs by its own rule, which checks LC; an illegal word is
ILLEGAL_CMD before LC is looked at. -/
def dispatchCommand (cw : Word) (s : State) : Answer :=
  match decodeCommand cw with
  | some .cal => execCal s
  | some .init => execInit s
  | some .conv => execConv s
  | some (.bit b) => execBit b s
  | some (.byte v) => execByte v s
  | some .latch => execLatch s
  | some (.rd _) => .next (s.refuse .illegalCmd)
  | some (.wr _ _) => .next (s.refuse .illegalCmd)
  | none => .next (s.refuse .illegalCmd)

/-- A write to one of the three RW-L registers: stored while LC is UNCAL, else LOCKED_WRITE (R42, R102). -/
def State.lockedWrite (s : State) (written : State) : Answer :=
  if s.lc = .uncal then .next written.respondOk else .next (s.refuse .lockedWrite)

/-- `WR off, data` (R102, and R103 where the offset is CMD's). -/
def execWr (off : Offset) (data : Word) (s : State) : Answer :=
  match regAt off with
  | none => .next (s.refuse .badOffset)
  | some .cmd => dispatchCommand data s
  | some .clkhz => s.lockedWrite { s with clkhz := data }
  | some .fudgeNum => s.lockedWrite { s with fudgeNum := data }
  | some .fudgeDen => s.lockedWrite { s with fudgeDen := data }
  | some .convNs => .next { s with convNs := data }.respondOk
  | some _ => .next (s.refuse .roWrite)

end Sys2Proof.Machine
end

