-- ==== Sys2Proof/Machine/Dispatch.lean ====
section
/-! DEFINITION. Machine/Dispatch.lean: one arm per operation, what a transaction does in its acceptance cycle (R153). -/

namespace Sys2Proof.Machine

def exec (i : Instr) (s : State) : Host.Outcome State Fault Refusal :=
  match i with
  | .rd off => Sys2Proof.Machine.execRd off s
  | .wr off data => Sys2Proof.Machine.execWr off data s
  | .cal => Sys2Proof.Machine.execCal s
  | .init => Sys2Proof.Machine.execInit s
  | .conv => Sys2Proof.Machine.execConv s
  | .bit b => Sys2Proof.Machine.execBit b s
  | .byte v => Sys2Proof.Machine.execByte v s
  | .latch => Sys2Proof.Machine.execLatch s

end Sys2Proof.Machine
end

