-- ==== Sys2Proof/Machine/Sequencer.lean ====
section
/-! DEFINITION. Machine/Sequencer.lean: the clock cycle (R153) and the segment ends (R154). -/

namespace Sys2Proof.Machine

/-! ### Segment ends (R154) -/

/-- The end of INIT's SETI segment: the pin is driven low and the driver is READY. -/
def finishInit (s : State) : State := { s with pin := false, pinOe := true, lc := .ready }.complete

/-- The end of a SPINL segment: the next bit of a `BYTE`, or the end of the command. -/
def finishBit (s : State) : State :=
  if s.nbits = 0#3 then s.complete
  else
    { s with nbits := s.nbits - 1#3, shift := shiftOut s.shift, curbit := firstBit (shiftOut s.shift) }.startSegment
      .seth s.setLength

/-- The action at the end of the current segment (R154). In IDLE there is none. -/
def segmentEnd (s : State) : State :=
  match s.phase with
  | .idle => s
  | .calculate => finishCal s
  | .seti => finishInit s
  | .seth => { s with pin := true }.startSegment .spinh (s.spinLength (s.highCount s.curbit))
  | .spinh => s.startSegment .setl s.setLength
  | .setl => { s with pin := false }.startSegment .spinl (s.spinLength (s.lowCount s.curbit))
  | .spinl => finishBit s
  | .spinr => s.complete

/-- An unstalled busy cycle (R153): REM counts, and the last cycle of a segment performs its end. -/
def busyCycle (s : State) : State := if 1#40 < s.rem then { s with rem := s.rem - 1#40 } else segmentEnd s

/-! ### The cycle (R100, R153, R220) -/

/-- What happens in a cycle. -/
inductive Activity where
  /-- `rst = 1` (R220). -/
  | reset
  /-- PHASE is IDLE and the host presents nothing (R100). -/
  | idle
  /-- PHASE is IDLE and the host's record is accepted (R100). -/
  | accept (r : Record)
  /-- PHASE is not IDLE and `stall = 1` (R162). -/
  | stalled
  /-- PHASE is not IDLE and the sequencer counts (R153). -/
  | busy
  deriving DecidableEq, Repr

/-- What happens in this cycle. Reset wins (R220); `stall` acts only while PHASE is not IDLE (R153), and the port
accepts only while it is (R100). -/
def State.activity (s : State) : Activity :=
  if s.rstAt 0 then .reset
  else if s.phase = .idle then
    match s.host with
    | .txn r :: _ => .accept r
    | .idle :: _ => .idle
    | [] => .idle
  else if s.stallAt 0 then .stalled
  else .busy

/-- A cycle with `rst = 1`. The host's queue stands: nothing is accepted (R220). -/
def State.resetCycle (s : State) : State := s.spend.inReset

/-- An idle cycle: nothing changes (R100) but the host's own gap. -/
def State.idleCycle (s : State) : State := { s.spend with host := s.host.tail }

/-- The state a transaction is carried out from: its cycle is spent and it has left the host's queue. -/
def State.acceptCycle (s : State) : State := { s.spend with host := s.host.tail }

/-- A stalled cycle: the cycle is spent and nothing else changes (R162). -/
def State.stalledCycle (s : State) : State := s.spend

/-- A counting cycle of the sequencer. -/
def State.seqCycle (s : State) : State := busyCycle s.spend

end Sys2Proof.Machine
end

