-- ==== Sys2Proof/Machine/Step.lean ====
section
/-! DEFINITION. Machine/Step.lean: one clock cycle (R153), and how a table word is put where the next cycle accepts it. -/

namespace Sys2Proof.Machine

/-- One clock cycle (R17, R153): `S(t+1)` from `S(t)` and the inputs of cycle `t`. -/
def step (s : State) : Host.Outcome State Fault Refusal :=
  match s.activity with
  | .reset => .next s.resetCycle
  | .idle => .next s.idleCycle
  | .accept r =>
    match decode r with
    | .ok i => exec i s.acceptCycle
    | .error why => .refused (.malformedRecord why)
  | .stalled => .next s.stalledCycle
  | .busy => .next s.seqCycle

/-- The host presents the table word next, ahead of whatever it meant to do, in a cycle in which the port accepts it:
`rst = 0` and PHASE is IDLE (R100). Nothing else changes, and from an idle state only those two inputs do.
Log entry 10. -/
def State.withFetchWord (s : State) (nbits w : Nat) : State :=
  { s with
    host := .txn (tableRecord nbits w) :: s.host, rstPlan := false :: s.rstPlan.tail, phase := .idle, rem := 0#40 }

end Sys2Proof.Machine
end

