-- ==== Sys2Proof/Machine/HostProgram.lean ====
section
/-! DEFINITION. Machine/HostProgram.lean: the notation of a host's programs (R88) and its pseudo-operations (R89), and the
queue a program stands for. A convenience of the notation: the hardware sees only the expansion. -/

namespace Sys2Proof.Machine

/-- One line of a host's program (R88). -/
inductive AsmLine where
  | rd (r : Reg)
  | wr (r : Reg) (value : Word)
  | cal
  | init
  | conv
  | bit (b : Bool)
  | byte (v : Byte)
  | latch
  /-- A raw command word, used to write illegal ones. -/
  | cmd (word : Word)
  deriving DecidableEq, Repr

/-- The record of a line, the table of rule R88. -/
def AsmLine.record : AsmLine → Record
  | .rd r => encode (.rd r.offset)
  | .wr r value => encode (.wr r.offset value)
  | .cal => encode .cal
  | .init => encode .init
  | .conv => encode .conv
  | .bit b => encode (.bit b)
  | .byte v => encode (.byte v)
  | .latch => encode .latch
  | .cmd word => writeRecord 0#8 word

/-- `setup hz` (R89): the boot sequence of rule R223 with the fudge factor left at 1/1. -/
def setup (hz : Word) : List AsmLine := [.wr .clkhz hz, .cal, .init]

/-- `setup hz, n, d` (R89). -/
def setupFudge (hz n d : Word) : List AsmLine := [.wr .clkhz hz, .wr .fudgeNum n, .wr .fudgeDen d, .cal, .init]

/-- `ticks ns` (R89): the calibrator's contract as one line. -/
def ticks (ns : Word) : List AsmLine := [.wr .convNs ns, .conv, .rd .convIters]

/-- `led r, g, b` (R89, R232): green, then red, then blue. -/
def led (r g b : Byte) : List AsmLine := [.byte g, .byte r, .byte b]

/-- A colour: red, green, blue (R18). -/
structure Color where
  red : Byte
  green : Byte
  blue : Byte
  deriving DecidableEq, Repr

/-- `frame c1, c2, ...` (R89, R235): each colour in order, then the latch. -/
def frame (colors : List Color) : List AsmLine := colors.flatMap (fun c => led c.red c.green c.blue) ++ [.latch]

/-- The host's queue of a program, with no idle cycles between its transactions (R100). -/
def present (lines : List AsmLine) : List HostItem := lines.map (fun l => .txn l.record)

/-- `idle n`: a gap of `n` cycles (R100). -/
def gap (n : Nat) : List HostItem := List.replicate n .idle

end Sys2Proof.Machine
end

