-- ==== Sys2Proof/Machine/Observe.lean ====
section
/-! DEFINITION. Machine/Observe.lean: what an observer outside the block sees: its output signals in a cycle (R53), the
pin trace and the port responses of a run (R160), the decoders of a trace (R166), durations in cycles (R161, R239) and
wall time (R17). None of it is state: "the block keeps no history" (R57). -/

namespace Sys2Proof.Machine

/-! ### One cycle -/

/-- The state during the cycle: while `rst = 1` every piece of the block's state has its reset value, at once (R220,
R222). -/
def State.visible (s : State) : State := if s.rstAt 0 then s.inReset else s

/-- The request signals the host drives (R53). -/
structure Request where
  valid : Bool
  write : Bool
  addr : Offset
  wdata : Word
  deriving DecidableEq, Repr

/-- The request of a record (R53, R81). -/
def State.present (s : State) (r : Record) : Request :=
  ⟨true, Record.isWrite r, Record.off r, if Record.isWrite r then Record.data r else Config.idleReqWdata s.tick⟩

/-- No request. The spec gives the other three signals no value then (log entry 16). -/
def State.noRequest (s : State) : Request :=
  ⟨false, Config.idleReqWrite s.tick, Config.idleReqAddr s.tick, Config.idleReqWdata s.tick⟩

/-- The request in this cycle (R53): the head of the host's queue where PHASE is IDLE. Where it is not, R100 lets a host
present its next transaction already, without effect, and R106 puts that outside the spec: `early` says whether this host
does (log entry 18). -/
def State.request (s : State) (early : Bool) : Request :=
  match s.host with
  | .txn r :: _ => if s.visible.phase = .idle ∨ early = true then s.present r else s.noRequest
  | .idle :: _ => s.noRequest
  | [] => s.noRequest

/-- `req_ready`: 1 exactly when PHASE is IDLE and `rst = 0` (R53, R100). -/
def State.reqReady (s : State) : Bool := decide (s.phase = .idle) && !s.rstAt 0

/-- The output signals of the block (R53). -/
structure Outputs where
  reqReady : Bool
  respValid : Bool
  respErr : Bool
  respRdata : Word
  pin : Bool
  pinOe : Bool
  np : Bool
  deriving DecidableEq, Repr

/-- The outputs in this cycle (R53, R56, R163, R220). The response shown is the one the cycle before gave (log entry 6), and
none is shown while `rst = 1`, so one given in the cycle before `rst` rises is never shown here (log entry 17). With
`resp_valid = 0` the spec gives `resp_err` and `resp_rdata` no value, and neither does the model (log entry 16). -/
def State.outputs (s : State) : Outputs :=
  let v := s.visible
  { reqReady := s.reqReady
    respValid := v.resp.isSome
    respErr := (v.resp.map Response.err).getD (Config.idleRespErr s.tick)
    respRdata := (v.resp.map Response.rdata).getD (Config.idleRespRdata s.tick)
    pin := v.pin
    pinOe := v.pinOe
    np := v.phase.np }

/-- A level of the pin trace (R160): not driven, driven low, driven high. -/
inductive Level where
  | undriven
  | low
  | high
  deriving DecidableEq, Repr

/-- The level of (`PIN_OE`, `PIN`) (R160). -/
def levelOf (oe pin : Bool) : Level := if oe then (if pin then .high else .low) else .undriven

/-- `TRACE(t)` of this cycle (R160). -/
def State.level (s : State) : Level := levelOf s.visible.pinOe s.visible.pin

/-- The level of the physical line: the block's while it alone drives it, unknown where nobody does (R51, log entry 5) or
where another agent does (`contested`; R231, log entry 20). -/
def State.line (s : State) (contested : Bool) : Bool :=
  if contested then Config.contestedLine s.tick
  else
    match s.level with
    | .undriven => Config.floatingLine s.tick
    | .low => false
    | .high => true

/-! ### Runs -/

/-- `n` cycles. -/
def runFor : Nat → State → Answer
  | 0, s => .next s
  | n + 1, s =>
    match step s with
    | .next t => runFor n t
    | .fault f => .fault f
    | .refused r => .refused r

/-- The state with the inputs of `n` cycles used up and no response shown: what `n` cycles leave of it, one or more, where
nothing else happens. -/
def State.afterCycles (s : State) (n : Nat) : State :=
  { s with
    resp := none, rstPlan := s.rstPlan.drop n, stallPlan := s.stallPlan.drop n, tick := s.tick + n }

/-- How many of the next `n` cycles have `stall = 1` (R162). -/
def State.stallCount (s : State) (n : Nat) : Nat := (List.range n).countP s.stallAt

/-- The pin trace of the next `n` cycles (R160). -/
def traceFor : Nat → State → List Level
  | 0, _ => []
  | n + 1, s =>
    s.level ::
      match step s with
      | .next t => traceFor n t
      | .fault _ => []
      | .refused _ => []

/-- The port responses the next `n` cycles give, in order (R105, R160). One counts where the cycle that ends its operation is
among them, even if `rst = 1` in the next, the one in which `State.outputs` would show it (log entry 17). -/
def responsesFor : Nat → State → List Response
  | 0, _ => []
  | n + 1, s =>
    match step s with
    | .next t => t.resp.toList ++ responsesFor n t
    | .fault _ => []
    | .refused _ => []

/-- What an outside observer sees of a run: two runs are the same exactly when these are equal (R160). -/
def observation (n : Nat) (s : State) : List Level × List Response := (traceFor n s, responsesFor n s)

/-- A run ends in this cycle (R240): the host has no transaction left, idle cycles apart, PHASE is IDLE, and the last
transaction's response has just been given. A response stands for one cycle (log entry 6), so this is the first such
cycle and no later one. A run of no transaction, or whose last one a reset ended, has no end (log entry 21). -/
def State.ended (s : State) : Bool :=
  s.host.all (fun x => decide (x = .idle)) && decide (s.phase = .idle) && s.resp.isSome

/-- The run-length form of a trace (R160). -/
def runLengths (tr : List Level) : List (Level × Nat) :=
  tr.foldr (fun l acc =>
    match acc with
    | (l', n) :: rest => if l = l' then (l, n + 1) :: rest else (l, 1) :: (l', n) :: rest
    | [] => [(l, 1)]) []

/-! ### Durations (R156 to R161, R239) -/

/-- The consecutive high cycles of a bit: `CH(b) * ITER_CYCLES + SET_CYCLES` (R156). -/
def State.highLength (s : State) (b : Bool) : Nat := s.spinLength (s.highCount b) + s.setLength

/-- The cycles of a bit after its acceptance: `2*SET_CYCLES + (CH(b) + CL(b)) * ITER_CYCLES` (R156, R157). -/
def State.bitLength (s : State) (b : Bool) : Nat :=
  2 * s.setLength + s.spinLength (s.highCount b) + s.spinLength (s.lowCount b)

/-- The bits of a byte in wire order, bit 7 first (R72, R157). -/
def wireBits (v : Byte) : List Bool := (List.range 8).map (fun i => v.getLsbD (7 - i))

/-- The trace of a bit after its acceptance (R161). -/
def State.bitTrace (s : State) (b : Bool) : List Level :=
  List.replicate s.setLength .low ++ List.replicate (s.highLength b) .high
    ++ List.replicate (s.spinLength (s.lowCount b)) .low

/-- The cycles of an operation without stalls, acceptance cycle included (R239): 1 for a refused one. -/
def State.duration (s : State) : Instr → Nat
  | .rd _ => 1
  | .wr _ _ => 1
  | .conv => 1
  | .cal => if s.lc = .uncal then 1 + s.params.calCycles.val else 1
  | .init => if s.lc = .cald then 1 + s.setLength else 1
  | .bit b => if s.lc = .ready then 1 + s.bitLength b else 1
  | .byte v => if s.lc = .ready then 1 + ((wireBits v).map s.bitLength).sum else 1
  | .latch => if s.lc = .ready then 1 + s.spinLength s.cntRes else 1

/-- Wall time of `n` cycles in nanoseconds, `n * 10^9 / F_TRUE` (R17). -/
def State.wallTimeNs (s : State) (n : Nat) : Rat := n * 1000000000 * s.params.fTrueDen / s.params.fTrueNum

/-! ### Decoders of a trace (R166) -/

/-- The maximal runs of high cycles, `n` of one already seen. -/
def highRunsFrom : Nat → List Level → List Nat
  | n, [] => if n = 0 then [] else [n]
  | n, .high :: ls => highRunsFrom (n + 1) ls
  | n, .low :: ls => if n = 0 then highRunsFrom 0 ls else n :: highRunsFrom 0 ls
  | n, .undriven :: ls => if n = 0 then highRunsFrom 0 ls else n :: highRunsFrom 0 ls

/-- The lengths of the maximal runs of high cycles of a trace (R166). -/
def highRuns (tr : List Level) : List Nat := highRunsFrom 0 tr

/-- The exact decoder's reading of a high run of `h` cycles (R166). The rule says nothing of a run of neither length, which
the model drops, nor of two equal lengths, where it has no decoder and the model reads 1 (log entry 19). -/
def State.exactBit (s : State) (h : Nat) : Option Bool :=
  if h = s.highLength true then some true else if h = s.highLength false then some false else none

/-- The exact decoder of a trace (R166). -/
def State.exactBits (s : State) (tr : List Level) : List Bool := (highRuns tr).filterMap s.exactBit

/-- The threshold decoder's reading of a high run of `h` cycles (R166). -/
def State.thresholdBit (s : State) (h : Nat) : Bool :=
  decide ((s.cntT0h.toNat + s.cntT1h.toNat) * s.params.iterCycles.val / 2 + s.setLength < h)

/-- The threshold decoder of a trace (R166). -/
def State.thresholdBits (s : State) (tr : List Level) : List Bool := (highRuns tr).map s.thresholdBit

end Sys2Proof.Machine
end

