-- ==== Sys2Proof/Safety.lean ====
section
/-! DEFINITION. Safety.lean: what claims about a run assume (R224) and what holds in every reachable state (R55). -/

namespace Sys2Proof.Machine

/-! ### Launch premises (R224) -/

/-- Premise (a) over the next `n` cycles: `rst = 0`. -/
def State.NoReset (s : State) (n : Nat) : Prop := ∀ k < n, s.rstAt k = false

/-- `stall = 0` in the coming cycles `a` to `n - 1`. -/
def State.NoStall (s : State) (a n : Nat) : Prop := ∀ k, a ≤ k → k < n → s.stallAt k = false

/-- Premise (d) over the next `n` cycles: the environment keeps `stall = 0` in every cycle with `np = 1` (R163). -/
def State.HonoursNp (s : State) (n : Nat) : Prop :=
  ∀ k < n, ∀ t, runFor k s = .next t → t.outputs.np = true → t.stallAt 0 = false

/-- Premise (c) over the next `n` cycles: one host (R106). State holds one host's queue, so that there is no second one is
its shape; this says that the host waits for a response before it presents the next transaction. `early k` says
whether it would present one in the `k`-th cycle while the port is busy (log entry 18). -/
def State.OneHost (s : State) (early : Nat → Bool) (n : Nat) : Prop :=
  ∀ k < n, ∀ t, runFor k s = .next t → t.visible.phase ≠ .idle → (t.request (early k)).valid = false

/-- Premise (e): the configured clock is the real one, and the fudge factor is `1 / ITER_CYCLES` (R123, R227): two
equations of positive fractions (R8, R122), so neither holds of a fraction 0/0. -/
structure State.TrueClock (s : State) : Prop where
  fTrueNum_pos : 0 < s.params.fTrueNum
  fTrueDen_pos : 0 < s.params.fTrueDen
  clock : s.params.fTrueNum = s.clkhz.toNat * s.params.fTrueDen
  fudgeDen_pos : 0 < s.fudgeDen.toNat
  fudge : s.fudgeNum.toNat * s.params.iterCycles.val = s.fudgeDen.toNat

/-! ### Premises on the host and its surroundings (R238): the first four "host must" and what it is assumed never to do -/

/-- The operation whose record the port accepts in this cycle. -/
def State.accepted (s : State) : Option Instr :=
  match s.activity with
  | .accept r => (decode r).toOption
  | .reset => none
  | .idle => none
  | .stalled => none
  | .busy => none

/-- Every operation accepted in the next `n` cycles satisfies `P` in the state that accepts it. -/
def State.EveryAccepted (s : State) (n : Nat) (P : State → Instr → Prop) : Prop :=
  ∀ k < n, ∀ t, runFor k s = .next t → ∀ i, t.accepted = some i → P t i

/-- A `WR` to CMD, legal or not. -/
def isCommand : Instr → Bool
  | .rd _ => false
  | .wr off _ => off == 0#8
  | .cal => true
  | .init => true
  | .conv => true
  | .bit _ => true
  | .byte _ => true
  | .latch => true

/-- A `WR` to one of the three configuration registers (R42). -/
def isConfiguration : Instr → Bool
  | .rd _ => false
  | .wr off _ => off == 0x0C#8 || off == 0x10#8 || off == 0x14#8
  | .cal => false
  | .init => false
  | .conv => false
  | .bit _ => false
  | .byte _ => false
  | .latch => false

/-- An operation that emits a pulse. -/
def isPulse : Instr → Bool
  | .rd _ => false
  | .wr _ _ => false
  | .cal => false
  | .init => false
  | .conv => false
  | .bit _ => true
  | .byte _ => true
  | .latch => false

/-- No other agent drives the line in the next `n` cycles (R231): `contested k` says whether one does in the `k`-th
(log entry 20). -/
def SoleDriver (contested : Nat → Bool) (n : Nat) : Prop := ∀ k < n, contested k = false

/-- What R238 lists and the block does not enforce, over the next `n` cycles. R238's "convert" row asks nothing. -/
structure State.HostPremises (s : State) (early contested : Nat → Bool) (n : Nat) : Prop where
  /-- Configure: "write the real clock and the right fudge", as `CAL` finds them. -/
  realClock : s.EveryAccepted n (fun t i => i = .cal → t.TrueClock)
  /-- Calibrate: "stop on `ERR`": no command follows a failed `CAL` (R223: "stop, reset needed"). -/
  stopsOnErr : s.EveryAccepted n (fun t i => t.lc = .fault → isCommand i = false)
  /-- Construct: "own the line exclusively", and never "let another agent drive the line". -/
  ownsLine : SoleDriver contested n
  /-- Never "write after `cal`". -/
  noLateConfiguration : s.EveryAccepted n (fun t i => isConfiguration i = true → t.lc = .uncal)
  /-- Never "issue pulses in `FAULT`". -/
  noPulseInFault : s.EveryAccepted n (fun t i => isPulse i = true → t.lc ≠ .fault)
  /-- Never "present a second transaction before the response". -/
  oneHost : s.OneHost early n

/-! ### Invariants -/

/-- The seven invariants of rule R55. -/
structure State.R55 (s : State) : Prop where
  idle_iff : s.phase = .idle ↔ s.rem = 0#40
  driven_iff : s.pinOe = true ↔ s.lc = .ready
  high_only : s.pin = true → s.phase = .spinh ∨ s.phase = .setl
  calibrated : s.lc = .cald ∨ s.lc = .ready →
    0 < s.clkhz.toNat ∧ 0 < s.fudgeNum.toNat ∧ 0 < s.fudgeDen.toNat ∧
      Nat.gcd s.tfNum.toNat s.tfDen.toNat = 1 ∧
      s.tfNum.toNat * 1000000000 = s.clkhz.toNat * s.tfDen.toNat ∧
      1 ≤ s.cntT0h.toNat ∧ 1 ≤ s.cntT0l.toNat ∧ 1 ≤ s.cntT1h.toNat ∧ 1 ≤ s.cntT1l.toNat ∧ 1 ≤ s.cntRes.toNat
  uncalibrated : s.lc = .uncal ∨ s.lc = .fault →
    s.tfNum = 0#32 ∧ s.tfDen = 0#32 ∧ s.cntT0h = 0#32 ∧ s.cntT0l = 0#32 ∧ s.cntT1h = 0#32 ∧ s.cntT1l = 0#32 ∧ s.cntRes = 0#32
  fault_iff : s.lc = .fault ↔ s.fcode ≠ 0#8
  phase_lc : (s.phase = .seth ∨ s.phase = .spinh ∨ s.phase = .setl ∨ s.phase = .spinl ∨ s.phase = .spinr →
      s.lc = .ready) ∧ (s.phase = .seti → s.lc = .cald) ∧ (s.phase = .calculate → s.lc = .uncal)

/-- The results are those of the frozen configuration (R42, R126). -/
def State.Calibrated (s : State) : Prop := ∃ k, s.calibration = .ok k ∧ s.storeResults k = s

/-- The invariant of the model: rule R55, the parameter ranges of rule R8, and what R42, R48, R49, R50 and R193 say of
the fields one by one. -/
structure State.Inv (s : State) : Prop where
  params : s.params.InRange
  idle_iff : s.phase = .idle ↔ s.rem = 0#40
  driven_iff : s.pinOe = true ↔ s.lc = .ready
  /-- R48: the pin is high exactly in SPINH and SETL. -/
  high_iff : s.pin = true ↔ s.phase = .spinh ∨ s.phase = .setl
  calibrated : s.lc = .cald ∨ s.lc = .ready → s.Calibrated
  uncalibrated : s.lc = .uncal ∨ s.lc = .fault →
    s.tfNum = 0#32 ∧ s.tfDen = 0#32 ∧ s.cntT0h = 0#32 ∧ s.cntT0l = 0#32 ∧ s.cntT1h = 0#32 ∧ s.cntT1l = 0#32 ∧ s.cntRes = 0#32
  fault_iff : s.lc = .fault ↔ s.fcode ≠ 0#8
  pulse_lc : s.phase = .seth ∨ s.phase = .spinh ∨ s.phase = .setl ∨ s.phase = .spinl ∨ s.phase = .spinr →
    s.lc = .ready
  seti_lc : s.phase = .seti → s.lc = .cald
  calc_lc : s.phase = .calculate → s.lc = .uncal
  /-- R49: REM stays below its largest possible value. -/
  rem_le : s.rem.toNat ≤ Params.maxRem
  /-- R50: inside a `BYTE`, bit 7 of SHIFT is the bit being emitted. -/
  shift_cur : s.nbits ≠ 0#3 → firstBit s.shift = s.curbit
  /-- R193: "Codes not in this table are never written." -/
  fcode_mem : s.fcode = 0#8 ∨ ∃ c : FatalCause, s.fcode = c.code
  lcode_mem : s.lcode = 0#8 ∨ ∃ c : RefuseCause, s.lcode = c.code

/-- The states a run reaches from the reset state, with any parameters in range and any inputs (R224 (b), (f)). -/
inductive Reachable : State → Prop where
  | start (s : State) (h : s.params.InRange) : Reachable s.inReset
  | cycle (s t : State) (hs : Reachable s) (h : step s = .next t) : Reachable t

/-- The port accepts the record of `i` in this cycle, and the host goes on with `rest` (R100). -/
def State.Accepts (s : State) (i : Instr) (rest : List HostItem) : Prop :=
  s.phase = .idle ∧ s.host = .txn (encode i) :: rest ∧ s.rstAt 0 = false

end Sys2Proof.Machine
end

