-- ==== Sys2Proof/Certificates/Slice0/Obligations.lean ====
section
/-! DEFINITION. Certificates/Slice0/Obligations.lean: the statements for the provers. Next states are written out field by
field where a rule gives them, so that a statement says its own frame: `{ s with … }` leaves every other register,
flag, error code and input as it was. Two notations are the model's own: `resp` of a next state is how it writes down the
response the cycle gave (log entry 6), and `host`, `stallPlan`, `rstPlan`, `tick` are how it writes down the inputs of the
coming cycles (log entries 3, 4, 7); no statement rests on their values at reset. -/

open Sys2Proof Sys2Proof.Machine

/-! ### Reset (R56, R220, R222) -/

/-- R56: the table of reset values, in a reset state with any parameters and any inputs, read through the port where a
register has an offset; and the five outputs the table names, in reset and after it. -/
def Obligations.ResetStateIsTheResetTable : Prop :=
  State.reset.inReset = State.reset ∧
  ∀ s : State,
    s.inReset.readReg .cmd = 0#32 ∧ s.inReset.readReg .status = 0#32 ∧ s.inReset.readReg .err = 0#32 ∧
    s.inReset.readReg .clkhz = 0#32 ∧ s.inReset.readReg .fudgeNum = 1#32 ∧ s.inReset.readReg .fudgeDen = 1#32 ∧
    s.inReset.readReg .t0hNs = s.params.t0hNs ∧ s.inReset.readReg .t0lNs = s.params.t0lNs ∧
    s.inReset.readReg .t1hNs = s.params.t1hNs ∧ s.inReset.readReg .t1lNs = s.params.t1lNs ∧
    s.inReset.readReg .resUs = s.params.resUs ∧
    s.inReset.readReg .tfNum = 0#32 ∧ s.inReset.readReg .tfDen = 0#32 ∧ s.inReset.readReg .cntT0h = 0#32 ∧
    s.inReset.readReg .cntT0l = 0#32 ∧ s.inReset.readReg .cntT1h = 0#32 ∧ s.inReset.readReg .cntT1l = 0#32 ∧
    s.inReset.readReg .cntRes = 0#32 ∧ s.inReset.readReg .convNs = 0#32 ∧ s.inReset.readReg .convIters = 0#32 ∧
    s.inReset.readReg .id = 0x42505401#32 ∧
    s.inReset.lc = .uncal ∧ s.inReset.phase = .idle ∧ s.inReset.rem = 0#40 ∧ s.inReset.curbit = false ∧
    s.inReset.shift = 0#8 ∧ s.inReset.nbits = 0#3 ∧ s.inReset.pin = false ∧ s.inReset.pinOe = false ∧
    s.inReset.fcode = 0#8 ∧ s.inReset.lcode = 0#8 ∧
    (s.rstAt 0 = true →
      s.outputs.reqReady = false ∧ s.outputs.respValid = false ∧ s.outputs.pin = false ∧ s.outputs.pinOe = false ∧
      s.outputs.np = false) ∧
    (s.rstAt 0 = false →
      s.inReset.outputs.reqReady = true ∧ s.inReset.outputs.respValid = false ∧ s.inReset.outputs.pin = false ∧
      s.inReset.outputs.pinOe = false ∧ s.inReset.outputs.np = false)

/-- R220, R222: with `rst = 1` the cycle shows and leaves the reset state whatever was running: the line is not driven, no
response is given, and nothing of the host's queue is accepted. -/
def Obligations.ResetWinsInEveryState : Prop :=
  ∀ s : State, s.rstAt 0 = true →
    s.level = .undriven ∧ s.reqReady = false ∧ s.outputs.np = false ∧ s.outputs.pinOe = false ∧
    s.outputs.respValid = false ∧
    ∃ t, step s = .next t ∧ t.inReset = t ∧ t.resp = none ∧ t.host = s.host ∧ t.params = s.params

/-! ### Records and command words (R81 to R85) -/

/-- Words written out from the spec decode to what they stand for: the examples of rules R81, R84, R101, R102 and R155 to
R158 and the records of programs P1, P2 and P7. -/
def Obligations.SpecWordsDecodeAsWritten : Prop :=
  decode 0x005000000000#48 = .ok (.rd 0x50#8) ∧ decode 0x000400000000#48 = .ok (.rd 0x04#8) ∧
  decode 0x005400000000#48 = .ok (.rd 0x54#8) ∧ decode 0x010C03D09000#48 = .ok (.wr 0x0C#8 64000000#32) ∧
  decode 0x014800000005#48 = .ok (.wr 0x48#8 5#32) ∧ decode 0x010400000001#48 = .ok (.wr 0x04#8 1#32) ∧
  decode 0x010001000000#48 = .ok .cal ∧ decode 0x010002000000#48 = .ok .init ∧ decode 0x010003000000#48 = .ok .conv ∧
  decode 0x010010000000#48 = .ok (.bit false) ∧ decode 0x010010000001#48 = .ok (.bit true) ∧
  decode 0x0100110000A5#48 = .ok (.byte 0xA5#8) ∧ decode 0x010012000000#48 = .ok .latch ∧
  decode 0x010010000002#48 = .ok (.wr 0#8 0x10000002#32) ∧ decode 0x010000000000#48 = .ok (.wr 0#8 0#32) ∧
  decode 0x000400000001#48 = .error .readWithData ∧ decode 0x020400000000#48 = .error .zeroFieldSet

/-- Every well-formed operation, with every operand value, is what its record decodes to (R81 to R84). -/
def Obligations.DecodeOfEncode : Prop := ∀ i : Instr, i.wellFormed = true → decode (encode i) = .ok i

/-- Every record that is a transaction is the record of the well-formed operation it decodes to, bit for bit (R81 to
R84). -/
def Obligations.EncodeOfDecode : Prop :=
  ∀ (r : Record) (i : Instr), decode r = .ok i → encode i = r ∧ i.wellFormed = true

/-- R81: the fields of a record as numbers: bits 47:41 must be 0, bit 40 tells `WR` from `RD`, bits 39:32 are the offset,
bits 31:0 the data, which a `RD` may not carry; a `WR` to offset 0 is the command its data stands for, if any (R84). That the
step then stops with `malformedRecord` is the model's reading of R81's "refuses it as malformed input" (log entry 9). -/
def Obligations.RecordFormat : Prop :=
  (∀ r : Record,
    (r.toNat / 2 ^ 41 ≠ 0 → decode r = .error .zeroFieldSet) ∧
    (r.toNat / 2 ^ 40 = 0 → r.toNat % 2 ^ 32 ≠ 0 → decode r = .error .readWithData) ∧
    (r.toNat / 2 ^ 40 = 0 → r.toNat % 2 ^ 32 = 0 → decode r = .ok (.rd (BitVec.ofNat 8 (r.toNat / 2 ^ 32)))) ∧
    (r.toNat / 2 ^ 40 = 1 → r.toNat / 2 ^ 32 % 256 ≠ 0 →
      decode r = .ok (.wr (BitVec.ofNat 8 (r.toNat / 2 ^ 32)) (BitVec.ofNat 32 r.toNat))) ∧
    (r.toNat / 2 ^ 40 = 1 → r.toNat / 2 ^ 32 % 256 = 0 →
      decode r = .ok ((decodeCommand (BitVec.ofNat 32 r.toNat)).getD (.wr 0#8 (BitVec.ofNat 32 r.toNat))))) ∧
  (∀ (s : State) (r : Record) (rest : List HostItem) (e : DecodeError),
    s.phase = .idle → s.rstAt 0 = false → s.host = .txn r :: rest → decode r = .error e →
    step s = .refused (.malformedRecord e))

/-- R85: the illegal command words, by their fields `op`, `rsv` and `imm8` as numbers, and what a `WR` of one to CMD does in
every state: ILLEGAL_CMD, response ERR, nothing else. -/
def Obligations.IllegalCommandWords : Prop :=
  ∀ (w : Word) (s : State),
    (w.toNat / 2 ^ 24 ∉ [0x01, 0x02, 0x03, 0x10, 0x11, 0x12] ∨ w.toNat / 2 ^ 8 % 2 ^ 16 ≠ 0 ∨
      (w.toNat / 2 ^ 24 ∈ [0x01, 0x02, 0x03, 0x12] ∧ w.toNat % 2 ^ 8 ≠ 0) ∨
      (w.toNat / 2 ^ 24 = 0x10 ∧ 2 ≤ w.toNat % 2 ^ 8)) ↔
    exec (.wr 0x00#8 w) s = .next { s with lcode := 0x13#8, resp := some ⟨true, 0#32⟩ }

/-- R84: the decoder's field checks and the mask and match words of the opcode map single out the same command words, and
no two rows of the map cover one word. -/
def Obligations.OpcodeMapAgreesWithDecoder : Prop :=
  (∀ w : Word, (decodeCommand w).isSome = isCommandWord w) ∧
  commandRows.Pairwise (fun a b => ∀ w : Word, ¬(a.covers w = true ∧ b.covers w = true))

/-! ### The cycle (R100, R153) -/

/-- A step runs the decoded operation: where the port accepts a record that decodes to `i`, the step is `exec i` at the
state with the record taken from the host's queue and the cycle's inputs used up. -/
def Obligations.StepRunsTheDecodedOperation : Prop :=
  ∀ (s : State) (r : Record) (rest : List HostItem) (i : Instr),
    s.phase = .idle → s.rstAt 0 = false → s.host = .txn r :: rest → decode r = .ok i →
    step s = exec i { s with
      host := rest, resp := none, rstPlan := s.rstPlan.tail, stallPlan := s.stallPlan.tail, tick := s.tick + 1 }

/-- R153: the step in a cycle with `rst = 0`, branch by branch: in IDLE an accepted transaction or nothing, whatever
`stall` is; busy and stalled, nothing; else REM counts, and the last cycle of a segment performs its end. -/
def Obligations.StepFollowsTheCycleRule : Prop :=
  ∀ s u : State, s.rstAt 0 = false →
    u = { s with resp := none, rstPlan := s.rstPlan.tail, stallPlan := s.stallPlan.tail, tick := s.tick + 1 } →
    (∀ r rest i, s.phase = .idle → s.host = .txn r :: rest → decode r = .ok i →
      step s = exec i { u with host := rest }) ∧
    (∀ rest, s.phase = .idle → s.host = .idle :: rest → step s = .next { u with host := rest }) ∧
    (s.phase = .idle → s.host = [] → step s = .next u) ∧
    (s.phase ≠ .idle → s.stallAt 0 = true → step s = .next u) ∧
    (s.phase ≠ .idle → s.stallAt 0 = false → 1 < s.rem.toNat →
      ∃ t, step s = .next t ∧ t = { u with rem := t.rem } ∧ t.rem.toNat + 1 = s.rem.toNat) ∧
    (s.phase ≠ .idle → s.stallAt 0 = false → s.rem = 1#40 → step s = .next (segmentEnd u))

/-- R154: the action at the end of each segment. In CALC it is `CAL`'s completion, with the results or the fatal cause of
`calibrate`, whose numbers `CalRunsTheCalibrator` states. In a state that satisfies the invariant no segment of no
cycles starts. -/
def Obligations.SegmentEndActions : Prop :=
  ∀ s : State, s.rem = 1#40 → s.rstAt 0 = false → s.stallAt 0 = false →
    let u := { s with resp := none, rstPlan := s.rstPlan.tail, stallPlan := s.stallPlan.tail, tick := s.tick + 1 }
    let result := calibrate s.params s.clkhz.toNat s.fudgeNum.toNat s.fudgeDen.toNat
    (s.phase = .calculate → ∀ k, result = .ok k → step s = .next
      { u with
        tfNum := BitVec.ofNat 32 k.num, tfDen := BitVec.ofNat 32 k.den, cntT0h := BitVec.ofNat 32 k.h0
        cntT0l := BitVec.ofNat 32 k.l0, cntT1h := BitVec.ofNat 32 k.h1, cntT1l := BitVec.ofNat 32 k.l1
        cntRes := BitVec.ofNat 32 k.rs, lc := .cald, phase := .idle, rem := 0#40, resp := some ⟨false, 0#32⟩ }) ∧
    (s.phase = .calculate → ∀ c, result = .error c → step s = .next
      { u with fcode := c.code, lc := .fault, phase := .idle, rem := 0#40, resp := some ⟨true, 0#32⟩ }) ∧
    (s.phase = .seti → step s = .next
      { u with pin := false, pinOe := true, lc := .ready, phase := .idle, rem := 0#40, resp := some ⟨false, 0#32⟩ }) ∧
    (s.phase = .seth → step s = .next
      { u with
        pin := true, phase := .spinh
        rem := BitVec.ofNat 40 ((if s.curbit then s.cntT1h else s.cntT0h).toNat * s.params.iterCycles.val) }) ∧
    (s.phase = .spinh → step s = .next
      { u with phase := .setl, rem := BitVec.ofNat 40 s.params.setCycles.val }) ∧
    (s.phase = .setl → step s = .next
      { u with
        pin := false, phase := .spinl
        rem := BitVec.ofNat 40 ((if s.curbit then s.cntT1l else s.cntT0l).toNat * s.params.iterCycles.val) }) ∧
    (s.phase = .spinl → s.nbits ≠ 0#3 → step s = .next
      { u with
        nbits := s.nbits - 1#3, shift := s.shift <<< 1, curbit := s.shift.getLsbD 6, phase := .seth
        rem := BitVec.ofNat 40 s.params.setCycles.val }) ∧
    (s.phase = .spinl → s.nbits = 0#3 → step s = .next
      { u with phase := .idle, rem := 0#40, resp := some ⟨false, 0#32⟩ }) ∧
    (s.phase = .spinr → step s = .next { u with phase := .idle, rem := 0#40, resp := some ⟨false, 0#32⟩ }) ∧
    (s.Inv → s.phase ≠ .idle → ∃ t, step s = .next t ∧ (t.phase ≠ .idle → 1 ≤ t.rem.toNat))

/-- R100: a transaction presented while PHASE is not IDLE is not accepted, not queued and has no effect: the cycle is the
same whatever the host presents, and the host's queue stands. -/
def Obligations.BusyPortAcceptsNothing : Prop :=
  ∀ (s : State) (presented : List HostItem), s.phase ≠ .idle →
    s.reqReady = false ∧
    ∃ t, step s = .next t ∧ t.host = s.host ∧ step { s with host := presented } = .next { t with host := presented }

/-! ### RD and WR (R101, R102) -/

/-- R101: what a `RD` answers, offset by offset, in every state; it writes nothing. STATUS and ERR are given as numbers
from their fields' places (R23, R24). A bad offset is refused. -/
def Obligations.ReadReturnsTheRegister : Prop :=
  ∀ s : State,
    let ok (v : Word) : Host.Outcome State Fault Refusal := .next { s with resp := some ⟨false, v⟩ }
    exec (.rd 0x00#8) s = ok 0#32 ∧
    exec (.rd 0x04#8) s = ok (BitVec.ofNat 32 (s.pinOe.toNat * 2 ^ 5 + s.pin.toNat * 2 ^ 4 +
      (match s.lc with | .uncal => 0 | .cald => 1 | .ready => 2 | .fault => 3))) ∧
    exec (.rd 0x08#8) s = ok (BitVec.ofNat 32 (s.lcode.toNat * 2 ^ 8 + s.fcode.toNat)) ∧
    exec (.rd 0x0C#8) s = ok s.clkhz ∧ exec (.rd 0x10#8) s = ok s.fudgeNum ∧ exec (.rd 0x14#8) s = ok s.fudgeDen ∧
    exec (.rd 0x18#8) s = ok s.params.t0hNs ∧ exec (.rd 0x1C#8) s = ok s.params.t0lNs ∧
    exec (.rd 0x20#8) s = ok s.params.t1hNs ∧ exec (.rd 0x24#8) s = ok s.params.t1lNs ∧
    exec (.rd 0x28#8) s = ok s.params.resUs ∧
    exec (.rd 0x2C#8) s = ok s.tfNum ∧ exec (.rd 0x30#8) s = ok s.tfDen ∧
    exec (.rd 0x34#8) s = ok s.cntT0h ∧ exec (.rd 0x38#8) s = ok s.cntT0l ∧
    exec (.rd 0x3C#8) s = ok s.cntT1h ∧ exec (.rd 0x40#8) s = ok s.cntT1l ∧ exec (.rd 0x44#8) s = ok s.cntRes ∧
    exec (.rd 0x48#8) s = ok s.convNs ∧ exec (.rd 0x4C#8) s = ok s.convIters ∧
    exec (.rd 0x50#8) s = ok 0x42505401#32 ∧
    ∀ off : Offset, off.toNat % 4 ≠ 0 ∨ 0x50 < off.toNat →
      exec (.rd off) s = .next { s with lcode := 0x10#8, resp := some ⟨true, 0#32⟩ }

/-- R64, R67: a misaligned or unmapped offset is refused BAD_OFFSET for `RD` and `WR` alike, whatever the data and the
state, with no other effect. -/
def Obligations.BadOffsetsAreRefused : Prop :=
  ∀ (s : State) (off : Offset) (data : Word), off.toNat % 4 ≠ 0 ∨ 0x54 ≤ off.toNat →
    exec (.rd off) s = .next { s with lcode := 0x10#8, resp := some ⟨true, 0#32⟩ } ∧
    exec (.wr off data) s = .next { s with lcode := 0x10#8, resp := some ⟨true, 0#32⟩ }

/-- R102: what a `WR` to a data register does, offset by offset: the three RW-L registers store in UNCAL and are locked
after, CONV_NS stores always, every other register is read-only, a bad offset is refused. Any data is stored. -/
def Obligations.WriteStoresOrIsRefused : Prop :=
  ∀ (s : State) (data : Word),
    (s.lc = .uncal →
      exec (.wr 0x0C#8 data) s = .next { s with clkhz := data, resp := some ⟨false, 0#32⟩ } ∧
      exec (.wr 0x10#8 data) s = .next { s with fudgeNum := data, resp := some ⟨false, 0#32⟩ } ∧
      exec (.wr 0x14#8 data) s = .next { s with fudgeDen := data, resp := some ⟨false, 0#32⟩ }) ∧
    (s.lc ≠ .uncal → ∀ off : Offset, off.toNat ∈ [0x0C, 0x10, 0x14] →
      exec (.wr off data) s = .next { s with lcode := 0x12#8, resp := some ⟨true, 0#32⟩ }) ∧
    exec (.wr 0x48#8 data) s = .next { s with convNs := data, resp := some ⟨false, 0#32⟩ } ∧
    (∀ off : Offset, off.toNat % 4 = 0 → off.toNat ≤ 0x50 → off.toNat ∉ [0x00, 0x0C, 0x10, 0x14, 0x48] →
      exec (.wr off data) s = .next { s with lcode := 0x11#8, resp := some ⟨true, 0#32⟩ }) ∧
    (∀ off : Offset, off.toNat % 4 ≠ 0 ∨ 0x50 < off.toNat →
      exec (.wr off data) s = .next { s with lcode := 0x10#8, resp := some ⟨true, 0#32⟩ })

/-- R103: a `WR` to CMD runs the command its data stands for, and that command's own rule; an illegal word is refused
ILLEGAL_CMD in every state, and a legal one not admitted in LC is refused BAD_STATE. -/
def Obligations.CommandWriteIsDispatched : Prop :=
  ∀ (w : Word) (s : State),
    (decodeCommand w = none → exec (.wr 0x00#8 w) s = .next { s with lcode := 0x13#8, resp := some ⟨true, 0#32⟩ }) ∧
    (∀ i, decodeCommand w = some i → exec (.wr 0x00#8 w) s = exec i s ∧ encode i = writeRecord 0#8 w) ∧
    (s.lc = .fault → decodeCommand w ≠ none →
      exec (.wr 0x00#8 w) s = .next { s with lcode := 0x14#8, resp := some ⟨true, 0#32⟩ })

/-! ### Admission and refusals (R104, R192) -/

/-- R104: the admission table. A command is refused BAD_STATE, with nothing but LCODE changed, in exactly the lifecycle
states whose cell does not say `run`. -/
def Obligations.AdmissionTable : Prop :=
  ∀ s : State,
    let refused (i : Instr) : Prop := exec i s = .next { s with lcode := 0x14#8, resp := some ⟨true, 0#32⟩ }
    (refused .cal ↔ s.lc ∈ [Lifecycle.cald, .ready, .fault]) ∧
    (refused .init ↔ s.lc ∈ [Lifecycle.uncal, .ready, .fault]) ∧
    (refused .conv ↔ s.lc ∈ [Lifecycle.uncal, .fault]) ∧
    (∀ b, refused (.bit b) ↔ s.lc ∈ [Lifecycle.uncal, .cald, .fault]) ∧
    (∀ v, refused (.byte v) ↔ s.lc ∈ [Lifecycle.uncal, .cald, .fault]) ∧
    (refused .latch ↔ s.lc ∈ [Lifecycle.uncal, .cald, .fault])

/-- R192: a transaction that is answered ERR in its acceptance cycle has read data 0, writes one of the refusal codes to
LCODE and changes nothing else; any other transaction leaves LCODE as it was. -/
def Obligations.RefusalChangesOnlyLcode : Prop :=
  ∀ (i : Instr) (s t : State), exec i s = .next t →
    (∀ d, t.resp = some ⟨true, d⟩ →
      t = { s with lcode := t.lcode, resp := some ⟨true, 0#32⟩ } ∧
        t.lcode ∈ [0x10#8, 0x11#8, 0x12#8, 0x13#8, 0x14#8, 0x15#8]) ∧
    ((∀ d, t.resp ≠ some ⟨true, d⟩) → t.lcode = s.lcode)

/-! ### Commands at acceptance -/

/-- R126, R155 to R158: an admitted `CAL`, `INIT`, `BIT`, `BYTE` or `LATCH` sets PHASE and REM (and CURBIT, SHIFT, NBITS) as its
own rule says, answers nothing yet and changes nothing else. -/
def Obligations.AdmittedCommandsStartTheirSegment : Prop :=
  ∀ s : State,
    (s.lc = .uncal → exec .cal s = .next
      { s with phase := .calculate, rem := BitVec.ofNat 40 s.params.calCycles.val, resp := none }) ∧
    (s.lc = .cald → exec .init s = .next
      { s with phase := .seti, rem := BitVec.ofNat 40 s.params.setCycles.val, resp := none }) ∧
    (s.lc = .ready → ∀ b, exec (.bit b) s = .next
      { s with
        curbit := b, shift := 0#8, nbits := 0#3, phase := .seth, rem := BitVec.ofNat 40 s.params.setCycles.val
        resp := none }) ∧
    (s.lc = .ready → ∀ v : Byte, exec (.byte v) s = .next
      { s with
        curbit := v.getLsbD 7, shift := v, nbits := 7#3, phase := .seth
        rem := BitVec.ofNat 40 s.params.setCycles.val, resp := none }) ∧
    (s.lc = .ready → exec .latch s = .next
      { s with phase := .spinr, rem := BitVec.ofNat 40 (s.cntRes.toNat * s.params.iterCycles.val), resp := none })

/-! ### The Tick Calibrator -/

/-- R126, R127, R191: `CAL` from its acceptance to its response. `n` is its duration, `1 + CAL_CYCLES`; the four fatal causes in
their order, each changing FCODE and LC only, else the seven results and CALD. -/
def Obligations.CalRunsTheCalibrator : Prop :=
  ∀ (s : State) (rest : List HostItem) (n : Nat),
    s.params.InRange → s.Accepts .cal rest → s.lc = .uncal → s.rem = 0#40 →
    n = 1 + s.params.calCycles.val → s.NoReset n → s.NoStall 1 n →
    let u := { s.afterCycles n with host := rest }
    let c := s.clkhz.toNat
    let fn := s.fudgeNum.toNat
    let fd := s.fudgeDen.toNat
    let num := c / Nat.gcd c 1000000000
    let den := 1000000000 / Nat.gcd c 1000000000
    let h0 := (s.params.t0hNs.toNat * num * fn) / (den * fd)
    let l0 := (s.params.t0lNs.toNat * num * fn) / (den * fd)
    let h1 := (s.params.t1hNs.toNat * num * fn) / (den * fd)
    let l1 := (s.params.t1lNs.toNat * num * fn) / (den * fd)
    let rs := (s.params.resUs.toNat * 1000 * num * fn + den * fd - 1) / (den * fd)
    let failed (code : Byte) := runFor n s = .next { u with fcode := code, lc := .fault, resp := some ⟨true, 0#32⟩ }
    let zero := h0 = 0 ∨ l0 = 0 ∨ h1 = 0 ∨ l1 = 0
    let tooBig := 2 ^ 32 ≤ h0 ∨ 2 ^ 32 ≤ l0 ∨ 2 ^ 32 ≤ h1 ∨ 2 ^ 32 ≤ l1 ∨ 2 ^ 32 ≤ rs
    (c = 0 → failed 0x01#8) ∧
    (c ≠ 0 → fn = 0 ∨ fd = 0 → failed 0x02#8) ∧
    (c ≠ 0 → fn ≠ 0 → fd ≠ 0 → zero → failed 0x03#8) ∧
    (c ≠ 0 → fn ≠ 0 → fd ≠ 0 → ¬zero → tooBig → failed 0x04#8) ∧
    (c ≠ 0 → fn ≠ 0 → fd ≠ 0 → ¬zero → ¬tooBig →
      runFor n s = .next
        { u with
          tfNum := BitVec.ofNat 32 num, tfDen := BitVec.ofNat 32 den, cntT0h := BitVec.ofNat 32 h0
          cntT0l := BitVec.ofNat 32 l0, cntT1h := BitVec.ofNat 32 h1, cntT1l := BitVec.ofNat 32 l1
          cntRes := BitVec.ofNat 32 rs, lc := .cald, resp := some ⟨false, 0#32⟩ }) ∧
    (∀ k, 0 < k → k < n → ∃ v, runFor k s = .next v ∧ v.phase = .calculate ∧ v.outputs.np = false)

/-- R129: `CONV` in CALD and READY stores the floor of the exact quotient or is refused CONV_RANGE; elsewhere it is refused
BAD_STATE. The divisor is not 0 in a state that satisfies the invariant. -/
def Obligations.ConvStoresTheFloor : Prop :=
  ∀ s : State,
    let q := (s.convNs.toNat * s.tfNum.toNat * s.fudgeNum.toNat) / (s.tfDen.toNat * s.fudgeDen.toNat)
    (s.lc = .cald ∨ s.lc = .ready → s.tfDen.toNat * s.fudgeDen.toNat ≠ 0 →
      (q < 2 ^ 32 → exec .conv s = .next { s with convIters := BitVec.ofNat 32 q, resp := some ⟨false, 0#32⟩ }) ∧
      (2 ^ 32 ≤ q → exec .conv s = .next { s with lcode := 0x15#8, resp := some ⟨true, 0#32⟩ })) ∧
    (s.lc = .uncal ∨ s.lc = .fault → exec .conv s = .next { s with lcode := 0x14#8, resp := some ⟨true, 0#32⟩ }) ∧
    (s.Inv → s.lc = .cald ∨ s.lc = .ready → s.tfDen.toNat * s.fudgeDen.toNat ≠ 0)

/-- R121, R130 items 1 and 2: the TickFactor of a clock above 0 is the ratio to 10^9 in lowest terms, and the common divisor
is `2^min(a, 9) * 5^min(b, 9)` with `2^a` and `5^b` the largest powers of 2 and 5 that divide the clock. -/
def Obligations.TickFactorIsReduced : Prop :=
  ∀ c : Nat, 0 < c →
    Nat.gcd (tickNum c) (tickDen c) = 1 ∧ tickNum c * 1000000000 = c * tickDen c ∧ 1 ≤ tickNum c ∧
    tickDen c ∣ 1000000000 ∧
    ∀ a b, 2 ^ a ∣ c → ¬2 ^ (a + 1) ∣ c → 5 ^ b ∣ c → ¬5 ^ (b + 1) ∣ c →
      Nat.gcd c 1000000000 = 2 ^ min a 9 * 5 ^ min b 9

/-- R130 item 4: the reduction changes no result. -/
def Obligations.ReductionChangesNoResult : Prop :=
  ∀ c fn fd d : Nat, 0 < c → 0 < fd →
    iters (tickNum c) (tickDen c) fn fd d = (d * c * fn) / (1000000000 * fd) ∧
    itersUp (tickNum c) (tickDen c) fn fd d = (d * c * fn + 1000000000 * fd - 1) / (1000000000 * fd)

/-- R130 items 5 to 8: the conversion of 0, its monotony, the bounds of the two roundings, near-additivity, and that a
common factor of the fudge pair changes nothing. -/
def Obligations.ConversionLaws : Prop :=
  ∀ c fn fd d : Nat, 0 < c → 0 < fd →
    let f (c fn fd d : Nat) := iters (tickNum c) (tickDen c) fn fd d
    let g (c fn fd d : Nat) := itersUp (tickNum c) (tickDen c) fn fd d
    f c fn fd 0 = 0 ∧
    (∀ c' fn' d', c ≤ c' → fn ≤ fn' → d ≤ d' → f c fn fd d ≤ f c' fn' fd d' ∧ g c fn fd d ≤ g c' fn' fd d') ∧
    (∀ fd', fd ≤ fd' → f c fn fd' d ≤ f c fn fd d ∧ g c fn fd' d ≤ g c fn fd d) ∧
    f c fn fd d * (1000000000 * fd) ≤ d * c * fn ∧ d * c * fn < (f c fn fd d + 1) * (1000000000 * fd) ∧
    d * c * fn ≤ g c fn fd d * (1000000000 * fd) ∧ g c fn fd d * (1000000000 * fd) < d * c * fn + 1000000000 * fd ∧
    (g c fn fd d = f c fn fd d ↔ 1000000000 * fd ∣ d * c * fn) ∧ g c fn fd d ≤ f c fn fd d + 1 ∧
    (∀ d', f c fn fd d + f c fn fd d' ≤ f c fn fd (d + d') ∧
      f c fn fd (d + d') ≤ f c fn fd d + f c fn fd d' + 1) ∧
    (∀ k, 1 ≤ k → f c (k * fn) (k * fd) d = f c fn fd d ∧ g c (k * fn) (k * fd) d = g c fn fd d)

/-- R133: at the reference timings and fudge 1/1 a 32-bit clock calibrates exactly from 2 857 143 hertz up. -/
def Obligations.SupportedRangeAtReferenceTimings : Prop :=
  ∀ (p : Params) (c : Word), p.t0hNs = 350#32 → p.t0lNs = 800#32 → p.t1hNs = 700#32 → p.t1lNs = 600#32 → p.resUs = 50#32 →
    ((∃ k, calibrate p c.toNat 1 1 = .ok k) ↔ 2857143 ≤ c.toNat)

/-- R125: in a calibrated state CNT_RES is the ceiling of the latch duration's iterations, and with the true clock and the
correct fudge factor its cycles last at least RES_US microseconds. -/
def Obligations.LatchLastsTheMinimum : Prop :=
  ∀ s : State, s.Inv → s.lc = .cald ∨ s.lc = .ready →
    s.cntRes.toNat = itersUp s.tfNum.toNat s.tfDen.toNat s.fudgeNum.toNat s.fudgeDen.toNat (s.params.resUs.toNat * 1000) ∧
    (s.TrueClock →
      ((s.params.resUs.toNat * 1000 : Nat) : Rat) ≤ s.wallTimeNs (s.cntRes.toNat * s.params.iterCycles.val))

/-- R124, and what R123 derives from it: in a calibrated state the four pulse counts are the floors of their durations' iterations, and with the
true clock and the correct fudge factor the cycles of a count last at most its duration, and more than the duration less
one iteration. -/
def Obligations.PulseCountsAreFloors : Prop :=
  ∀ (s : State) (d cnt : Word), s.Inv → s.lc = .cald ∨ s.lc = .ready →
    (d, cnt) ∈ [(s.params.t0hNs, s.cntT0h), (s.params.t0lNs, s.cntT0l), (s.params.t1hNs, s.cntT1h),
      (s.params.t1lNs, s.cntT1l)] →
    cnt.toNat = iters s.tfNum.toNat s.tfDen.toNat s.fudgeNum.toNat s.fudgeDen.toNat d.toNat ∧
    (s.TrueClock →
      s.wallTimeNs (cnt.toNat * s.params.iterCycles.val) ≤ (d.toNat : Rat) ∧
      (d.toNat : Rat) - s.wallTimeNs s.params.iterCycles.val <
        s.wallTimeNs (cnt.toNat * s.params.iterCycles.val))

/-! ### The Bit Encoder's commands, from acceptance to response -/

/-- R155: `INIT` takes `1 + SET_CYCLES` cycles, with `np = 1` after its acceptance, and leaves the line driven low, LC READY and
response OK; nothing else changes. -/
def Obligations.InitDrivesTheLineLow : Prop :=
  ∀ (s : State) (rest : List HostItem) (n : Nat),
    s.params.InRange → s.Accepts .init rest → s.lc = .cald → s.rem = 0#40 → n = 1 + s.params.setCycles.val →
    s.NoReset n → s.NoStall 1 n →
    runFor n s = .next { s.afterCycles n with
      host := rest, pin := false, pinOe := true, lc := .ready, resp := some ⟨false, 0#32⟩ } ∧
    (∀ k, 0 < k → k < n → ∃ v, runFor k s = .next v ∧ v.phase = .seti ∧ v.outputs.np = true) ∧
    traceFor n s = List.replicate n (levelOf s.pinOe s.pin)

/-- R156: `BIT b` from its acceptance: its duration, its trace (low `1 + S`, high `CH(b)*I + S`, low `CL(b)*I`), `np`
throughout, and the state it leaves. -/
def Obligations.BitEmitsOnePulse : Prop :=
  ∀ (s : State) (b : Bool) (rest : List HostItem) (n : Nat),
    s.Inv → s.Accepts (.bit b) rest → s.lc = .ready →
    let S := s.params.setCycles.val
    let I := s.params.iterCycles.val
    let ch := (if b then s.cntT1h else s.cntT0h).toNat
    let cl := (if b then s.cntT1l else s.cntT0l).toNat
    n = 1 + 2 * S + (ch + cl) * I → s.NoReset n → s.NoStall 1 n →
    runFor n s = .next { s.afterCycles n with
      host := rest, curbit := b, shift := 0#8, nbits := 0#3, resp := some ⟨false, 0#32⟩ } ∧
    traceFor n s =
      List.replicate (1 + S) .low ++ List.replicate (ch * I + S) .high ++ List.replicate (cl * I) .low ∧
    (∀ k, 0 < k → k < n → ∃ v, runFor k s = .next v ∧ v.phase ≠ .idle ∧ v.outputs.np = true)

/-- R157: `BYTE v` emits the bits `v[7]` to `v[0]` in that order with no acceptance and no idle cycle between them: its
duration with `k` one-bits, its trace, `np` throughout, and the response. -/
def Obligations.ByteEmitsEightPulses : Prop :=
  ∀ (s : State) (v : Byte) (rest : List HostItem) (n ones : Nat),
    s.Inv → s.Accepts (.byte v) rest → s.lc = .ready →
    let S := s.params.setCycles.val
    let I := s.params.iterCycles.val
    let ch (b : Bool) := (if b then s.cntT1h else s.cntT0h).toNat
    let cl (b : Bool) := (if b then s.cntT1l else s.cntT0l).toNat
    let bits := [v.getLsbD 7, v.getLsbD 6, v.getLsbD 5, v.getLsbD 4, v.getLsbD 3, v.getLsbD 2, v.getLsbD 1, v.getLsbD 0]
    ones = bits.countP (· == true) →
    n = 1 + 16 * S +
      (ones * (s.cntT1h.toNat + s.cntT1l.toNat) + (8 - ones) * (s.cntT0h.toNat + s.cntT0l.toNat)) * I →
    s.NoReset n → s.NoStall 1 n →
    (∃ t, runFor n s = .next t ∧
      t = { s.afterCycles n with
        host := rest, curbit := t.curbit, shift := t.shift, nbits := t.nbits, resp := some ⟨false, 0#32⟩ }) ∧
    traceFor n s = .low :: bits.flatMap (fun b =>
      List.replicate S .low ++ List.replicate (ch b * I + S) .high ++ List.replicate (cl b * I) .low) ∧
    (∀ k, 0 < k → k < n → ∃ t, runFor k s = .next t ∧ t.phase ≠ .idle ∧ t.outputs.np = true)

/-- R158: `LATCH` takes `1 + CNT_RES * ITER_CYCLES` cycles, all low, and changes nothing. -/
def Obligations.LatchHoldsTheLineLow : Prop :=
  ∀ (s : State) (rest : List HostItem) (n : Nat),
    s.Inv → s.Accepts .latch rest → s.lc = .ready → n = 1 + s.cntRes.toNat * s.params.iterCycles.val →
    s.NoReset n → s.NoStall 1 n →
    runFor n s = .next { s.afterCycles n with host := rest, resp := some ⟨false, 0#32⟩ } ∧
    traceFor n s = List.replicate n .low ∧
    (∀ k, 0 < k → k < n → ∃ v, runFor k s = .next v ∧ v.phase = .spinr ∧ v.outputs.np = true)

/-- R239: the cycles of every operation without stalls, acceptance cycle included, refused ones too: the port is ready
again, and PHASE is IDLE, for the first time exactly then. -/
def Obligations.DurationOfEveryOperation : Prop :=
  ∀ (s : State) (i : Instr) (rest : List HostItem),
    s.Inv → i.wellFormed = true → s.Accepts i rest → s.NoReset (s.duration i) → s.NoStall 1 (s.duration i) →
    (∃ t, runFor (s.duration i) s = .next t ∧ t.phase = .idle ∧ t.host = rest ∧ t.resp.isSome = true) ∧
    (∀ k, 0 < k → k < s.duration i → ∃ t, runFor k s = .next t ∧ t.phase ≠ .idle ∧ t.resp = none)

/-! ### Stalls and termination (R162, R165) -/

/-- R162: over any `n` cycles of a segment, stalled or not, PHASE, the pin and every register hold, and REM counts the
unstalled ones only: each stalled cycle makes the segment one cycle longer. -/
def Obligations.StalledCyclesLengthenTheSegment : Prop :=
  ∀ (s : State) (n : Nat), s.phase ≠ .idle → 0 < n → s.NoReset n → n - s.stallCount n < s.rem.toNat →
    ∃ t, runFor n s = .next t ∧ t = { s.afterCycles n with rem := t.rem } ∧
      t.rem.toNat + (n - s.stallCount n) = s.rem.toNat ∧ traceFor n s = List.replicate n (levelOf s.pinOe s.pin)

/-- R156, R162: a `BIT b` under any stalls whatever that completes at cycle `n` still emits one low, one high and one
low segment, each longer than without stalls by the stalled cycles that fall in it. That a stall in SETH lengthens the low
segment is the model's reading of R48, R153 and R154 against R225's wording (log entry 15). -/
def Obligations.StalledBitKeepsItsShape : Prop :=
  ∀ (s t : State) (b : Bool) (rest : List HostItem) (n : Nat),
    s.Inv → s.Accepts (.bit b) rest → s.lc = .ready → s.NoReset n → 0 < n → runFor n s = .next t → t.phase = .idle →
    (∀ k, 0 < k → k < n → ∃ v, runFor k s = .next v ∧ v.phase ≠ .idle) →
    ∃ a h c, a + h + c + 1 = n ∧
      traceFor n s = List.replicate (1 + a) .low ++ List.replicate h .high ++ List.replicate c .low ∧
      a + s.stallCount 1 = s.setLength + s.stallCount (1 + a) ∧
      h + s.stallCount (1 + a) = s.highLength b + s.stallCount (1 + a + h) ∧
      c + s.stallCount (1 + a + h) = s.spinLength (s.lowCount b) + s.stallCount n

/-- R157, R162: the same for a `BYTE v`. The trace's unstalled cycles are the trace without stalls, and a stalled cycle holds
the level of the cycle after it, so every segment is longer by the stalled cycles that fall in it. A stall in SETH holds
the low level: the model's reading (log entry 15). -/
def Obligations.StalledByteKeepsItsShape : Prop :=
  ∀ (s t : State) (v : Byte) (rest : List HostItem) (n : Nat),
    s.Inv → s.Accepts (.byte v) rest → s.lc = .ready → s.NoReset n → 0 < n → runFor n s = .next t → t.phase = .idle →
    (∀ k, 0 < k → k < n → ∃ u, runFor k s = .next u ∧ u.phase ≠ .idle) →
    let tr := traceFor n s
    let bits := [v.getLsbD 7, v.getLsbD 6, v.getLsbD 5, v.getLsbD 4, v.getLsbD 3, v.getLsbD 2, v.getLsbD 1, v.getLsbD 0]
    (((List.range n).filter (fun k => decide (k = 0) || !s.stallAt k)).filterMap (fun k => tr[k]?) =
      .low :: bits.flatMap (fun b =>
        List.replicate s.setLength .low ++ List.replicate (s.highLength b) .high ++
          List.replicate (s.spinLength (s.lowCount b)) .low)) ∧
    ∀ k, 0 < k → k < n → s.stallAt k = true → k + 1 < n ∧ tr[k]? = tr[k + 1]?

/-- R166, the threshold decoder: where `CNT_T0H < CNT_T1H`, the bit of one `BIT b` is still recovered under stalls, as long as
those in the high pulse of a 0 bit number at most half the difference of the two counts, in cycles; stalls in the high
pulse of a 1 bit never matter. Which stalls fall in the high pulse is the model's reading (log entry 15). -/
def Obligations.ThresholdDecoderToleratesStalls : Prop :=
  ∀ (s t : State) (b : Bool) (rest : List HostItem) (n : Nat),
    s.Inv → s.Accepts (.bit b) rest → s.lc = .ready → s.cntT0h.toNat < s.cntT1h.toNat → s.NoReset n → 0 < n →
    runFor n s = .next t → t.phase = .idle → (∀ k, 0 < k → k < n → ∃ v, runFor k s = .next v ∧ v.phase ≠ .idle) →
    (b = false →
      (List.range n).countP (fun k => s.stallAt k && decide ((traceFor n s)[k]? = some .high)) ≤
        (s.cntT1h.toNat - s.cntT0h.toNat) * s.params.iterCycles.val / 2) →
    s.thresholdBits (traceFor n s) = [b]

/-- R165: a command completes after finitely many unstalled cycles: at most 32 segments of at most `(2^32 - 1) * 255`. That
CALC keeps this bound is the model's reading of R49, through the parameters' range in the invariant (log entry 2). -/
def Obligations.EveryCommandCompletes : Prop :=
  ∀ (s : State) (n : Nat), s.Inv → s.NoReset n → 32 * Params.maxRem ≤ n - s.stallCount n →
    ∃ k t, k ≤ n ∧ runFor k s = .next t ∧ t.phase = .idle

/-! ### Invariants and whole-machine rules -/

/-- The reset state satisfies the invariant, with any parameters in range and any inputs; the block's own parameters are
in range. The range is R8's, with an upper end for CAL_CYCLES that R8 does not give and the model reads from R49 (log
entry 2). -/
def Obligations.ResetStateSatisfiesTheInvariant : Prop :=
  (∀ s : State, s.params.InRange → s.inReset.Inv) ∧ Config.params.InRange ∧ State.reset.Inv

/-- Every cycle, reset and stalled ones included, keeps the invariant. -/
def Obligations.StepKeepsTheInvariant : Prop := ∀ s t : State, s.Inv → step s = .next t → t.Inv

/-- R55: its seven invariants hold in every reachable state. -/
def Obligations.ReachableStatesSatisfyR55 : Prop := ∀ s : State, Reachable s → s.R55

/-- From a state that satisfies the invariant the machine never faults, and stops only at a record that is no transaction.
Both stops are the model's choice: the fault at a zero divisor, which R129 says cannot be (log entry 8), and the refusal of
what R81 calls malformed input (log entry 9). -/
def Obligations.OnlyMalformedRecordsStopTheMachine : Prop :=
  ∀ s : State, s.Inv →
    (∃ t, step s = .next t) ∨
    ∃ r rest e, s.host = .txn r :: rest ∧ decode r = .error e ∧ step s = .refused (.malformedRecord e)

/-- R42: outside UNCAL no cycle but reset changes a configuration register, a calibration result or a timing constant; and
in UNCAL the calibration results change only where LC leaves it. -/
def Obligations.ConfigurationIsFrozen : Prop :=
  ∀ s t : State, step s = .next t → s.rstAt 0 = false →
    t.params = s.params ∧
    (s.lc ≠ .uncal → t.clkhz = s.clkhz ∧ t.fudgeNum = s.fudgeNum ∧ t.fudgeDen = s.fudgeDen) ∧
    (s.Inv → s.lc ≠ .uncal ∨ t.lc = .uncal →
      t.tfNum = s.tfNum ∧ t.tfDen = s.tfDen ∧ t.cntT0h = s.cntT0h ∧ t.cntT0l = s.cntT0l ∧ t.cntT1h = s.cntT1h ∧
      t.cntT1l = s.cntT1l ∧ t.cntRes = s.cntRes)

/-- R47: the lifecycle moves only as its table says: UNCAL to CALD or FAULT when `CAL` completes, CALD to READY when `INIT`
completes, and back to UNCAL by reset alone. -/
def Obligations.LifecycleMovesOnlyByItsTable : Prop :=
  ∀ s t : State, s.Inv → step s = .next t →
    (s.rstAt 0 = true → t.lc = .uncal) ∧
    (s.rstAt 0 = false →
      t.lc = s.lc ∨
      (s.lc = .uncal ∧ s.phase = .calculate ∧ t.phase = .idle ∧ (t.lc = .cald ∨ t.lc = .fault)) ∨
      (s.lc = .cald ∧ s.phase = .seti ∧ t.phase = .idle ∧ t.lc = .ready))

/-- R191, R198: FAULT is absorbing: until reset every cycle keeps LC, FCODE, the configuration, the results and the undriven
pin, and the sequencer never leaves IDLE. -/
def Obligations.FaultIsAbsorbing : Prop :=
  ∀ s t : State, s.Inv → s.lc = .fault → s.rstAt 0 = false → step s = .next t →
    t.lc = .fault ∧ t.fcode = s.fcode ∧ t.phase = .idle ∧ t.pin = false ∧ t.pinOe = false ∧
    t.clkhz = s.clkhz ∧ t.fudgeNum = s.fudgeNum ∧ t.fudgeDen = s.fudgeDen ∧ t.convIters = s.convIters ∧
    t.tfNum = 0#32 ∧ t.tfDen = 0#32 ∧ t.cntT0h = 0#32 ∧ t.cntT0l = 0#32 ∧ t.cntT1h = 0#32 ∧ t.cntT1l = 0#32 ∧ t.cntRes = 0#32

/-- R51, R45: nothing but the end of a SETI, SETH or SETL segment, or reset, moves the pin, and PIN_OE once set is cleared
only by reset. -/
def Obligations.OnlySetSegmentsMoveThePin : Prop :=
  ∀ s t : State, step s = .next t → s.rstAt 0 = false →
    (s.pinOe = true → t.pinOe = true) ∧
    (t.pin ≠ s.pin ∨ t.pinOe ≠ s.pinOe →
      s.stallAt 0 = false ∧ s.rem.toNat ≤ 1 ∧ (s.phase = .seti ∨ s.phase = .seth ∨ s.phase = .setl))

/-- R24, R45, R52: FCODE changes only where a `CAL` fails, LCODE only where a transaction is refused, each with response ERR;
and no cycle but reset clears FCODE. -/
def Obligations.ErrorCodesRecordErrorsOnly : Prop :=
  ∀ s t : State, s.Inv → step s = .next t → s.rstAt 0 = false →
    (t.fcode ≠ s.fcode → s.phase = .calculate ∧ t.lc = .fault ∧ t.resp = some ⟨true, 0#32⟩ ∧ s.fcode = 0#8) ∧
    (t.lcode ≠ s.lcode → s.phase = .idle ∧ t.resp = some ⟨true, 0#32⟩ ∧ t.lcode ≠ 0#8)

/-- R105: a transaction is answered by its acceptance cycle or, where it starts a segment, when PHASE is IDLE again, and no
other cycle answers. The answer is written in the state after the cycle, which is the model's choice (log entry 6), so this
says nothing of the cycle in which a one-cycle operation's `resp_valid` shows. Besides: a completed `INIT`, `BIT`, `BYTE` or `LATCH` is always OK; read data is 0 but for a successful `RD`. -/
def Obligations.OneResponsePerTransaction : Prop :=
  ∀ s t : State, s.Inv → step s = .next t → s.rstAt 0 = false →
    (s.phase = .idle → (∀ r rest, s.host ≠ .txn r :: rest) → t.resp = none) ∧
    (s.phase = .idle → (∃ r rest, s.host = .txn r :: rest) → (t.resp.isSome = true ↔ t.phase = .idle)) ∧
    (s.phase ≠ .idle → (t.resp.isSome = true ↔ t.phase = .idle)) ∧
    (s.phase ≠ .idle → s.phase ≠ .calculate → t.resp = none ∨ t.resp = some ⟨false, 0#32⟩) ∧
    (∀ x, t.resp = some x → x.rdata ≠ 0#32 →
      x.err = false ∧ ∃ r rest off, s.host = .txn r :: rest ∧ decode r = .ok (.rd off))

/-- R169: in READY with PHASE IDLE the pin is low, and a `RD` of STATUS never sees it high. -/
def Obligations.IdleLineIsLow : Prop :=
  ∀ s : State, s.Inv → s.phase = .idle →
    s.pin = false ∧ (s.lc = .ready → exec (.rd 0x04#8) s = .next { s with resp := some ⟨false, 0x22#32⟩ }) ∧
    ∀ t v, exec (.rd 0x04#8) s = .next t → t.resp = some ⟨false, v⟩ → v.getLsbD 4 = false

/-- R53, R163: `np` is 1 in exactly the phases of the pulse group and SETI, `req_ready` exactly in IDLE, and `pin`, `pin_oe` are the
level registers, in a cycle with `rst = 0`. -/
def Obligations.OutputsFollowTheState : Prop :=
  ∀ s : State, s.rstAt 0 = false →
    (s.outputs.np = true ↔ s.phase ∈ [Phase.seti, .seth, .spinh, .setl, .spinl, .spinr]) ∧
    (s.outputs.reqReady = true ↔ s.phase = .idle) ∧ s.outputs.pin = s.pin ∧ s.outputs.pinOe = s.pinOe ∧
    s.level = (if s.pinOe then (if s.pin then .high else .low) else .undriven)

/-! ### Boot, frames, and what a trace says -/

/-- R223: the boot sequence of `setup hz, n, d` from the reset state, with any parameters in range and a supported
configuration, reaches READY with the line driven low, and every transaction is answered OK. The last answer counts whatever `rst` is in
the cycle after, the model's choice (log entry 17). -/
def Obligations.BootReachesReady : Prop :=
  ∀ (s : State) (hz fn fd : Word) (k : Calibration) (n : Nat),
    s.params.InRange → s.host = present (setupFudge hz fn fd) →
    calibrate s.params hz.toNat fn.toNat fd.toNat = .ok k →
    n = 3 + (1 + s.params.calCycles.val) + (1 + s.params.setCycles.val) → s.NoReset n → s.NoStall 0 n →
    (∃ t, runFor n s.inReset = .next t ∧ t.lc = .ready ∧ t.phase = .idle ∧ t.pin = false ∧ t.pinOe = true ∧ t.host = [] ∧
      t.clkhz = hz ∧ t.fudgeNum = fn ∧ t.fudgeDen = fd ∧ t.storeResults k = t ∧ t.fcode = 0#8 ∧ t.lcode = 0#8) ∧
    responsesFor n s.inReset = List.replicate 5 ⟨false, 0#32⟩

/-- R89, R232, R235: the pseudo-operation `led r, g, b` sends green, then red, then blue, and `frame` ends with the latch. -/
def Obligations.LedSendsGreenRedBlue : Prop :=
  ∀ (r g b : Byte) (cs : List Color),
    (led r g b).map (fun l => decode l.record) = [.ok (.byte g), .ok (.byte r), .ok (.byte b)] ∧
    (frame (⟨r, g, b⟩ :: cs)).map AsmLine.record =
      [encode (.byte g), encode (.byte r), encode (.byte b)] ++ (frame cs).map AsmLine.record ∧
    (frame []).map AsmLine.record = [encode .latch]

/-- R62: where the port is bridged onto a byte-addressed bus, the four bytes at a register's offset are its word,
little-endian. -/
def Obligations.BridgedBytesAreLittleEndian : Prop :=
  ∀ (s : State) (r : Reg),
    s.bridgeByte r 3 ++ s.bridgeByte r 2 ++ s.bridgeByte r 1 ++ s.bridgeByte r 0 = s.readReg r

/-- R166, the round trip: whatever `BIT` and `BYTE` commands the host issues, with any idle cycles between them, the exact
decoder applied to the trace of the run recovers their bits in issue order, most significant bit of each byte first,
where the two high lengths differ and no stall occurs while `np = 1`. -/
def Obligations.TraceDecodesToTheBitsSent : Prop :=
  ∀ (s t : State) (sent : List (Option Instr)) (n : Nat),
    s.Inv → s.lc = .ready → s.phase = .idle → s.cntT0h ≠ s.cntT1h →
    (∀ i, some i ∈ sent → (∃ b, i = .bit b) ∨ ∃ v, i = .byte v) →
    s.host = sent.map (fun x => match x with | none => .idle | some i => .txn (encode i)) →
    s.NoReset n → s.HonoursNp n → runFor n s = .next t → t.phase = .idle → t.host = [] →
    s.exactBits (traceFor n s) =
      sent.flatMap (fun x => match x with
        | some (.bit b) => [b]
        | some (.byte v) => [v.getLsbD 7, v.getLsbD 6, v.getLsbD 5, v.getLsbD 4, v.getLsbD 3, v.getLsbD 2, v.getLsbD 1,
            v.getLsbD 0]
        | _ => [])

/-- R166, the threshold decoder over a whole run: whatever `BIT` and `BYTE` commands the host issues, with any idle cycles
between them and under any stalls, it recovers their bits where `CNT_T0H < CNT_T1H`, as long as the stalled cycles in any
one high pulse of a 0 bit number at most half the difference of the two counts, in cycles. Which stalls fall in the high
pulse is the model's reading (log entry 15). -/
def Obligations.ThresholdDecoderRecoversTheBitsSent : Prop :=
  ∀ (s t : State) (sent : List (Option Instr)) (n : Nat),
    s.Inv → s.lc = .ready → s.phase = .idle → s.cntT0h.toNat < s.cntT1h.toNat →
    (∀ i, some i ∈ sent → (∃ b, i = .bit b) ∨ ∃ v, i = .byte v) →
    s.host = sent.map (fun x => match x with | none => .idle | some i => .txn (encode i)) →
    s.NoReset n → runFor n s = .next t → t.phase = .idle → t.host = [] →
    (∀ (p h : Nat) (u : State), (∀ j < h, (traceFor n s)[p + j]? = some .high) → runFor p s = .next u → u.curbit = false →
      (List.range h).countP (fun j => s.stallAt (p + j)) ≤
        (s.cntT1h.toNat - s.cntT0h.toNat) * s.params.iterCycles.val / 2) →
    s.thresholdBits (traceFor n s) =
      sent.flatMap (fun x => match x with
        | some (.bit b) => [b]
        | some (.byte v) => [v.getLsbD 7, v.getLsbD 6, v.getLsbD 5, v.getLsbD 4, v.getLsbD 3, v.getLsbD 2, v.getLsbD 1,
            v.getLsbD 0]
        | _ => [])

/-- R168: a frame of `N` LEDs sent as `3N` bytes and one latch, with any idle cycles and any stalls, takes at least
`N * 24 * min(...) + CNT_RES * I` cycles from the state that accepts its first transaction to its completion. -/
def Obligations.FrameTakesItsTime : Prop :=
  ∀ (s t : State) (leds n : Nat) (bytes : List Byte) (items : List HostItem),
    s.Inv → s.lc = .ready → s.phase = .idle → bytes.length = 3 * leds → s.host = items →
    items.filter (fun x => decide (x ≠ .idle)) = (bytes.map (fun v => .txn (encode (.byte v)))) ++ [.txn (encode .latch)] →
    items.head? ≠ some .idle → s.NoReset n → runFor n s = .next t → t.phase = .idle → t.host = [] →
    leds * 24 *
        min (2 * s.params.setCycles.val + (s.cntT0h.toNat + s.cntT0l.toNat) * s.params.iterCycles.val)
          (2 * s.params.setCycles.val + (s.cntT1h.toNat + s.cntT1l.toNat) * s.params.iterCycles.val) +
      s.cntRes.toNat * s.params.iterCycles.val ≤ n

/-- R51: while the block drives the line and no other agent does, the physical line has PIN's level, in every cycle of a run
with `rst = 0`. -/
def Obligations.DrivenLineFollowsThePin : Prop :=
  ∀ (s t : State) (contested : Nat → Bool) (n k : Nat),
    SoleDriver contested n → k < n → runFor k s = .next t → t.rstAt 0 = false → t.pinOe = true →
    t.line (contested k) = t.pin

/-- R240: a run ends at most once, and where it ends PHASE is IDLE and no transaction is left. That a run of no transaction
has no end is the model's choice (log entry 21). -/
def Obligations.RunEndsOnce : Prop :=
  ∀ (s t : State) (n : Nat), runFor n s = .next t → t.ended = true →
    t.phase = .idle ∧ (∀ r, .txn r ∉ t.host) ∧ ∀ (m : Nat) (u : State), runFor m s = .next u → u.ended = true → m = n

/-- R165, R240: a run of one transaction or more, each of them well formed, with any idle cycles, ends within `n` cycles
without reset of which enough are unstalled: for each of the host's items two, and the bound of `EveryCommandCompletes`
(log entry 2). -/
def Obligations.EveryRunEnds : Prop :=
  ∀ (s : State) (n : Nat), s.Inv → s.phase = .idle →
    (∃ r, .txn r ∈ s.host) → (∀ r, .txn r ∈ s.host → ∃ i, decode r = .ok i) →
    s.NoReset n → s.host.length * (2 + 32 * Params.maxRem) ≤ n - s.stallCount n →
    ∃ k t, k ≤ n ∧ runFor k s = .next t ∧ t.ended = true
end

