-- ==== Sys2Proof/Laws/State.lean ====
section
/-! SUPPORT. Laws/State.lean: what each update of the state does to each field, true by unfolding once, so that no later
proof unfolds a record update. -/

namespace Sys2Proof.Machine

/-! ### The fields after spending a cycle -/

@[simp] theorem State.spend_params (s : State) :
    s.spend.params = s.params := rfl
@[simp] theorem State.spend_clkhz (s : State) :
    s.spend.clkhz = s.clkhz := rfl
@[simp] theorem State.spend_fudgeNum (s : State) :
    s.spend.fudgeNum = s.fudgeNum := rfl
@[simp] theorem State.spend_fudgeDen (s : State) :
    s.spend.fudgeDen = s.fudgeDen := rfl
@[simp] theorem State.spend_tfNum (s : State) :
    s.spend.tfNum = s.tfNum := rfl
@[simp] theorem State.spend_tfDen (s : State) :
    s.spend.tfDen = s.tfDen := rfl
@[simp] theorem State.spend_cntT0h (s : State) :
    s.spend.cntT0h = s.cntT0h := rfl
@[simp] theorem State.spend_cntT0l (s : State) :
    s.spend.cntT0l = s.cntT0l := rfl
@[simp] theorem State.spend_cntT1h (s : State) :
    s.spend.cntT1h = s.cntT1h := rfl
@[simp] theorem State.spend_cntT1l (s : State) :
    s.spend.cntT1l = s.cntT1l := rfl
@[simp] theorem State.spend_cntRes (s : State) :
    s.spend.cntRes = s.cntRes := rfl
@[simp] theorem State.spend_convNs (s : State) :
    s.spend.convNs = s.convNs := rfl
@[simp] theorem State.spend_convIters (s : State) :
    s.spend.convIters = s.convIters := rfl
@[simp] theorem State.spend_lc (s : State) :
    s.spend.lc = s.lc := rfl
@[simp] theorem State.spend_phase (s : State) :
    s.spend.phase = s.phase := rfl
@[simp] theorem State.spend_rem (s : State) :
    s.spend.rem = s.rem := rfl
@[simp] theorem State.spend_curbit (s : State) :
    s.spend.curbit = s.curbit := rfl
@[simp] theorem State.spend_shift (s : State) :
    s.spend.shift = s.shift := rfl
@[simp] theorem State.spend_nbits (s : State) :
    s.spend.nbits = s.nbits := rfl
@[simp] theorem State.spend_pin (s : State) :
    s.spend.pin = s.pin := rfl
@[simp] theorem State.spend_pinOe (s : State) :
    s.spend.pinOe = s.pinOe := rfl
@[simp] theorem State.spend_fcode (s : State) :
    s.spend.fcode = s.fcode := rfl
@[simp] theorem State.spend_lcode (s : State) :
    s.spend.lcode = s.lcode := rfl
@[simp] theorem State.spend_resp (s : State) :
    s.spend.resp = none := rfl
@[simp] theorem State.spend_host (s : State) :
    s.spend.host = s.host := rfl
@[simp] theorem State.spend_stallPlan (s : State) :
    s.spend.stallPlan = s.stallPlan.tail := rfl
@[simp] theorem State.spend_rstPlan (s : State) :
    s.spend.rstPlan = s.rstPlan.tail := rfl
@[simp] theorem State.spend_tick (s : State) :
    s.spend.tick = s.tick + 1 := rfl

/-! ### The fields after answering OK -/

@[simp] theorem State.respondOk_params (s : State) :
    s.respondOk.params = s.params := rfl
@[simp] theorem State.respondOk_clkhz (s : State) :
    s.respondOk.clkhz = s.clkhz := rfl
@[simp] theorem State.respondOk_fudgeNum (s : State) :
    s.respondOk.fudgeNum = s.fudgeNum := rfl
@[simp] theorem State.respondOk_fudgeDen (s : State) :
    s.respondOk.fudgeDen = s.fudgeDen := rfl
@[simp] theorem State.respondOk_tfNum (s : State) :
    s.respondOk.tfNum = s.tfNum := rfl
@[simp] theorem State.respondOk_tfDen (s : State) :
    s.respondOk.tfDen = s.tfDen := rfl
@[simp] theorem State.respondOk_cntT0h (s : State) :
    s.respondOk.cntT0h = s.cntT0h := rfl
@[simp] theorem State.respondOk_cntT0l (s : State) :
    s.respondOk.cntT0l = s.cntT0l := rfl
@[simp] theorem State.respondOk_cntT1h (s : State) :
    s.respondOk.cntT1h = s.cntT1h := rfl
@[simp] theorem State.respondOk_cntT1l (s : State) :
    s.respondOk.cntT1l = s.cntT1l := rfl
@[simp] theorem State.respondOk_cntRes (s : State) :
    s.respondOk.cntRes = s.cntRes := rfl
@[simp] theorem State.respondOk_convNs (s : State) :
    s.respondOk.convNs = s.convNs := rfl
@[simp] theorem State.respondOk_convIters (s : State) :
    s.respondOk.convIters = s.convIters := rfl
@[simp] theorem State.respondOk_lc (s : State) :
    s.respondOk.lc = s.lc := rfl
@[simp] theorem State.respondOk_phase (s : State) :
    s.respondOk.phase = s.phase := rfl
@[simp] theorem State.respondOk_rem (s : State) :
    s.respondOk.rem = s.rem := rfl
@[simp] theorem State.respondOk_curbit (s : State) :
    s.respondOk.curbit = s.curbit := rfl
@[simp] theorem State.respondOk_shift (s : State) :
    s.respondOk.shift = s.shift := rfl
@[simp] theorem State.respondOk_nbits (s : State) :
    s.respondOk.nbits = s.nbits := rfl
@[simp] theorem State.respondOk_pin (s : State) :
    s.respondOk.pin = s.pin := rfl
@[simp] theorem State.respondOk_pinOe (s : State) :
    s.respondOk.pinOe = s.pinOe := rfl
@[simp] theorem State.respondOk_fcode (s : State) :
    s.respondOk.fcode = s.fcode := rfl
@[simp] theorem State.respondOk_lcode (s : State) :
    s.respondOk.lcode = s.lcode := rfl
@[simp] theorem State.respondOk_resp (s : State) :
    s.respondOk.resp = okWith 0#32 := rfl
@[simp] theorem State.respondOk_host (s : State) :
    s.respondOk.host = s.host := rfl
@[simp] theorem State.respondOk_stallPlan (s : State) :
    s.respondOk.stallPlan = s.stallPlan := rfl
@[simp] theorem State.respondOk_rstPlan (s : State) :
    s.respondOk.rstPlan = s.rstPlan := rfl
@[simp] theorem State.respondOk_tick (s : State) :
    s.respondOk.tick = s.tick := rfl

/-! ### The fields after a refusal (R192) -/

@[simp] theorem State.refuse_params (s : State) (c : RefuseCause) :
    (s.refuse c).params = s.params := rfl
@[simp] theorem State.refuse_clkhz (s : State) (c : RefuseCause) :
    (s.refuse c).clkhz = s.clkhz := rfl
@[simp] theorem State.refuse_fudgeNum (s : State) (c : RefuseCause) :
    (s.refuse c).fudgeNum = s.fudgeNum := rfl
@[simp] theorem State.refuse_fudgeDen (s : State) (c : RefuseCause) :
    (s.refuse c).fudgeDen = s.fudgeDen := rfl
@[simp] theorem State.refuse_tfNum (s : State) (c : RefuseCause) :
    (s.refuse c).tfNum = s.tfNum := rfl
@[simp] theorem State.refuse_tfDen (s : State) (c : RefuseCause) :
    (s.refuse c).tfDen = s.tfDen := rfl
@[simp] theorem State.refuse_cntT0h (s : State) (c : RefuseCause) :
    (s.refuse c).cntT0h = s.cntT0h := rfl
@[simp] theorem State.refuse_cntT0l (s : State) (c : RefuseCause) :
    (s.refuse c).cntT0l = s.cntT0l := rfl
@[simp] theorem State.refuse_cntT1h (s : State) (c : RefuseCause) :
    (s.refuse c).cntT1h = s.cntT1h := rfl
@[simp] theorem State.refuse_cntT1l (s : State) (c : RefuseCause) :
    (s.refuse c).cntT1l = s.cntT1l := rfl
@[simp] theorem State.refuse_cntRes (s : State) (c : RefuseCause) :
    (s.refuse c).cntRes = s.cntRes := rfl
@[simp] theorem State.refuse_convNs (s : State) (c : RefuseCause) :
    (s.refuse c).convNs = s.convNs := rfl
@[simp] theorem State.refuse_convIters (s : State) (c : RefuseCause) :
    (s.refuse c).convIters = s.convIters := rfl
@[simp] theorem State.refuse_lc (s : State) (c : RefuseCause) :
    (s.refuse c).lc = s.lc := rfl
@[simp] theorem State.refuse_phase (s : State) (c : RefuseCause) :
    (s.refuse c).phase = s.phase := rfl
@[simp] theorem State.refuse_rem (s : State) (c : RefuseCause) :
    (s.refuse c).rem = s.rem := rfl
@[simp] theorem State.refuse_curbit (s : State) (c : RefuseCause) :
    (s.refuse c).curbit = s.curbit := rfl
@[simp] theorem State.refuse_shift (s : State) (c : RefuseCause) :
    (s.refuse c).shift = s.shift := rfl
@[simp] theorem State.refuse_nbits (s : State) (c : RefuseCause) :
    (s.refuse c).nbits = s.nbits := rfl
@[simp] theorem State.refuse_pin (s : State) (c : RefuseCause) :
    (s.refuse c).pin = s.pin := rfl
@[simp] theorem State.refuse_pinOe (s : State) (c : RefuseCause) :
    (s.refuse c).pinOe = s.pinOe := rfl
@[simp] theorem State.refuse_fcode (s : State) (c : RefuseCause) :
    (s.refuse c).fcode = s.fcode := rfl
@[simp] theorem State.refuse_lcode (s : State) (c : RefuseCause) :
    (s.refuse c).lcode = c.code := rfl
@[simp] theorem State.refuse_resp (s : State) (c : RefuseCause) :
    (s.refuse c).resp = errResponse := rfl
@[simp] theorem State.refuse_host (s : State) (c : RefuseCause) :
    (s.refuse c).host = s.host := rfl
@[simp] theorem State.refuse_stallPlan (s : State) (c : RefuseCause) :
    (s.refuse c).stallPlan = s.stallPlan := rfl
@[simp] theorem State.refuse_rstPlan (s : State) (c : RefuseCause) :
    (s.refuse c).rstPlan = s.rstPlan := rfl
@[simp] theorem State.refuse_tick (s : State) (c : RefuseCause) :
    (s.refuse c).tick = s.tick := rfl

/-! ### The fields after a fatal error (R191) -/

@[simp] theorem State.fatal_params (s : State) (c : FatalCause) :
    (s.fatal c).params = s.params := rfl
@[simp] theorem State.fatal_clkhz (s : State) (c : FatalCause) :
    (s.fatal c).clkhz = s.clkhz := rfl
@[simp] theorem State.fatal_fudgeNum (s : State) (c : FatalCause) :
    (s.fatal c).fudgeNum = s.fudgeNum := rfl
@[simp] theorem State.fatal_fudgeDen (s : State) (c : FatalCause) :
    (s.fatal c).fudgeDen = s.fudgeDen := rfl
@[simp] theorem State.fatal_tfNum (s : State) (c : FatalCause) :
    (s.fatal c).tfNum = s.tfNum := rfl
@[simp] theorem State.fatal_tfDen (s : State) (c : FatalCause) :
    (s.fatal c).tfDen = s.tfDen := rfl
@[simp] theorem State.fatal_cntT0h (s : State) (c : FatalCause) :
    (s.fatal c).cntT0h = s.cntT0h := rfl
@[simp] theorem State.fatal_cntT0l (s : State) (c : FatalCause) :
    (s.fatal c).cntT0l = s.cntT0l := rfl
@[simp] theorem State.fatal_cntT1h (s : State) (c : FatalCause) :
    (s.fatal c).cntT1h = s.cntT1h := rfl
@[simp] theorem State.fatal_cntT1l (s : State) (c : FatalCause) :
    (s.fatal c).cntT1l = s.cntT1l := rfl
@[simp] theorem State.fatal_cntRes (s : State) (c : FatalCause) :
    (s.fatal c).cntRes = s.cntRes := rfl
@[simp] theorem State.fatal_convNs (s : State) (c : FatalCause) :
    (s.fatal c).convNs = s.convNs := rfl
@[simp] theorem State.fatal_convIters (s : State) (c : FatalCause) :
    (s.fatal c).convIters = s.convIters := rfl
@[simp] theorem State.fatal_lc (s : State) (c : FatalCause) :
    (s.fatal c).lc = .fault := rfl
@[simp] theorem State.fatal_phase (s : State) (c : FatalCause) :
    (s.fatal c).phase = .idle := rfl
@[simp] theorem State.fatal_rem (s : State) (c : FatalCause) :
    (s.fatal c).rem = 0#40 := rfl
@[simp] theorem State.fatal_curbit (s : State) (c : FatalCause) :
    (s.fatal c).curbit = s.curbit := rfl
@[simp] theorem State.fatal_shift (s : State) (c : FatalCause) :
    (s.fatal c).shift = s.shift := rfl
@[simp] theorem State.fatal_nbits (s : State) (c : FatalCause) :
    (s.fatal c).nbits = s.nbits := rfl
@[simp] theorem State.fatal_pin (s : State) (c : FatalCause) :
    (s.fatal c).pin = s.pin := rfl
@[simp] theorem State.fatal_pinOe (s : State) (c : FatalCause) :
    (s.fatal c).pinOe = s.pinOe := rfl
@[simp] theorem State.fatal_fcode (s : State) (c : FatalCause) :
    (s.fatal c).fcode = c.code := rfl
@[simp] theorem State.fatal_lcode (s : State) (c : FatalCause) :
    (s.fatal c).lcode = s.lcode := rfl
@[simp] theorem State.fatal_resp (s : State) (c : FatalCause) :
    (s.fatal c).resp = errResponse := rfl
@[simp] theorem State.fatal_host (s : State) (c : FatalCause) :
    (s.fatal c).host = s.host := rfl
@[simp] theorem State.fatal_stallPlan (s : State) (c : FatalCause) :
    (s.fatal c).stallPlan = s.stallPlan := rfl
@[simp] theorem State.fatal_rstPlan (s : State) (c : FatalCause) :
    (s.fatal c).rstPlan = s.rstPlan := rfl
@[simp] theorem State.fatal_tick (s : State) (c : FatalCause) :
    (s.fatal c).tick = s.tick := rfl

/-! ### The fields after starting a segment (R15) -/

@[simp] theorem State.startSegment_params (s : State) (p : Phase) (n : Nat) :
    (s.startSegment p n).params = s.params := rfl
@[simp] theorem State.startSegment_clkhz (s : State) (p : Phase) (n : Nat) :
    (s.startSegment p n).clkhz = s.clkhz := rfl
@[simp] theorem State.startSegment_fudgeNum (s : State) (p : Phase) (n : Nat) :
    (s.startSegment p n).fudgeNum = s.fudgeNum := rfl
@[simp] theorem State.startSegment_fudgeDen (s : State) (p : Phase) (n : Nat) :
    (s.startSegment p n).fudgeDen = s.fudgeDen := rfl
@[simp] theorem State.startSegment_tfNum (s : State) (p : Phase) (n : Nat) :
    (s.startSegment p n).tfNum = s.tfNum := rfl
@[simp] theorem State.startSegment_tfDen (s : State) (p : Phase) (n : Nat) :
    (s.startSegment p n).tfDen = s.tfDen := rfl
@[simp] theorem State.startSegment_cntT0h (s : State) (p : Phase) (n : Nat) :
    (s.startSegment p n).cntT0h = s.cntT0h := rfl
@[simp] theorem State.startSegment_cntT0l (s : State) (p : Phase) (n : Nat) :
    (s.startSegment p n).cntT0l = s.cntT0l := rfl
@[simp] theorem State.startSegment_cntT1h (s : State) (p : Phase) (n : Nat) :
    (s.startSegment p n).cntT1h = s.cntT1h := rfl
@[simp] theorem State.startSegment_cntT1l (s : State) (p : Phase) (n : Nat) :
    (s.startSegment p n).cntT1l = s.cntT1l := rfl
@[simp] theorem State.startSegment_cntRes (s : State) (p : Phase) (n : Nat) :
    (s.startSegment p n).cntRes = s.cntRes := rfl
@[simp] theorem State.startSegment_convNs (s : State) (p : Phase) (n : Nat) :
    (s.startSegment p n).convNs = s.convNs := rfl
@[simp] theorem State.startSegment_convIters (s : State) (p : Phase) (n : Nat) :
    (s.startSegment p n).convIters = s.convIters := rfl
@[simp] theorem State.startSegment_lc (s : State) (p : Phase) (n : Nat) :
    (s.startSegment p n).lc = s.lc := rfl
@[simp] theorem State.startSegment_phase (s : State) (p : Phase) (n : Nat) :
    (s.startSegment p n).phase = p := rfl
@[simp] theorem State.startSegment_rem (s : State) (p : Phase) (n : Nat) :
    (s.startSegment p n).rem = BitVec.ofNat 40 n := rfl
@[simp] theorem State.startSegment_curbit (s : State) (p : Phase) (n : Nat) :
    (s.startSegment p n).curbit = s.curbit := rfl
@[simp] theorem State.startSegment_shift (s : State) (p : Phase) (n : Nat) :
    (s.startSegment p n).shift = s.shift := rfl
@[simp] theorem State.startSegment_nbits (s : State) (p : Phase) (n : Nat) :
    (s.startSegment p n).nbits = s.nbits := rfl
@[simp] theorem State.startSegment_pin (s : State) (p : Phase) (n : Nat) :
    (s.startSegment p n).pin = s.pin := rfl
@[simp] theorem State.startSegment_pinOe (s : State) (p : Phase) (n : Nat) :
    (s.startSegment p n).pinOe = s.pinOe := rfl
@[simp] theorem State.startSegment_fcode (s : State) (p : Phase) (n : Nat) :
    (s.startSegment p n).fcode = s.fcode := rfl
@[simp] theorem State.startSegment_lcode (s : State) (p : Phase) (n : Nat) :
    (s.startSegment p n).lcode = s.lcode := rfl
@[simp] theorem State.startSegment_resp (s : State) (p : Phase) (n : Nat) :
    (s.startSegment p n).resp = none := rfl
@[simp] theorem State.startSegment_host (s : State) (p : Phase) (n : Nat) :
    (s.startSegment p n).host = s.host := rfl
@[simp] theorem State.startSegment_stallPlan (s : State) (p : Phase) (n : Nat) :
    (s.startSegment p n).stallPlan = s.stallPlan := rfl
@[simp] theorem State.startSegment_rstPlan (s : State) (p : Phase) (n : Nat) :
    (s.startSegment p n).rstPlan = s.rstPlan := rfl
@[simp] theorem State.startSegment_tick (s : State) (p : Phase) (n : Nat) :
    (s.startSegment p n).tick = s.tick := rfl

/-! ### The fields after the end of a command -/

@[simp] theorem State.complete_params (s : State) :
    s.complete.params = s.params := rfl
@[simp] theorem State.complete_clkhz (s : State) :
    s.complete.clkhz = s.clkhz := rfl
@[simp] theorem State.complete_fudgeNum (s : State) :
    s.complete.fudgeNum = s.fudgeNum := rfl
@[simp] theorem State.complete_fudgeDen (s : State) :
    s.complete.fudgeDen = s.fudgeDen := rfl
@[simp] theorem State.complete_tfNum (s : State) :
    s.complete.tfNum = s.tfNum := rfl
@[simp] theorem State.complete_tfDen (s : State) :
    s.complete.tfDen = s.tfDen := rfl
@[simp] theorem State.complete_cntT0h (s : State) :
    s.complete.cntT0h = s.cntT0h := rfl
@[simp] theorem State.complete_cntT0l (s : State) :
    s.complete.cntT0l = s.cntT0l := rfl
@[simp] theorem State.complete_cntT1h (s : State) :
    s.complete.cntT1h = s.cntT1h := rfl
@[simp] theorem State.complete_cntT1l (s : State) :
    s.complete.cntT1l = s.cntT1l := rfl
@[simp] theorem State.complete_cntRes (s : State) :
    s.complete.cntRes = s.cntRes := rfl
@[simp] theorem State.complete_convNs (s : State) :
    s.complete.convNs = s.convNs := rfl
@[simp] theorem State.complete_convIters (s : State) :
    s.complete.convIters = s.convIters := rfl
@[simp] theorem State.complete_lc (s : State) :
    s.complete.lc = s.lc := rfl
@[simp] theorem State.complete_phase (s : State) :
    s.complete.phase = .idle := rfl
@[simp] theorem State.complete_rem (s : State) :
    s.complete.rem = 0#40 := rfl
@[simp] theorem State.complete_curbit (s : State) :
    s.complete.curbit = s.curbit := rfl
@[simp] theorem State.complete_shift (s : State) :
    s.complete.shift = s.shift := rfl
@[simp] theorem State.complete_nbits (s : State) :
    s.complete.nbits = s.nbits := rfl
@[simp] theorem State.complete_pin (s : State) :
    s.complete.pin = s.pin := rfl
@[simp] theorem State.complete_pinOe (s : State) :
    s.complete.pinOe = s.pinOe := rfl
@[simp] theorem State.complete_fcode (s : State) :
    s.complete.fcode = s.fcode := rfl
@[simp] theorem State.complete_lcode (s : State) :
    s.complete.lcode = s.lcode := rfl
@[simp] theorem State.complete_resp (s : State) :
    s.complete.resp = okWith 0#32 := rfl
@[simp] theorem State.complete_host (s : State) :
    s.complete.host = s.host := rfl
@[simp] theorem State.complete_stallPlan (s : State) :
    s.complete.stallPlan = s.stallPlan := rfl
@[simp] theorem State.complete_rstPlan (s : State) :
    s.complete.rstPlan = s.rstPlan := rfl
@[simp] theorem State.complete_tick (s : State) :
    s.complete.tick = s.tick := rfl

/-! ### The fields after storing a calibration (R126) -/

@[simp] theorem State.storeResults_params (s : State) (k : Calibration) :
    (s.storeResults k).params = s.params := rfl
@[simp] theorem State.storeResults_clkhz (s : State) (k : Calibration) :
    (s.storeResults k).clkhz = s.clkhz := rfl
@[simp] theorem State.storeResults_fudgeNum (s : State) (k : Calibration) :
    (s.storeResults k).fudgeNum = s.fudgeNum := rfl
@[simp] theorem State.storeResults_fudgeDen (s : State) (k : Calibration) :
    (s.storeResults k).fudgeDen = s.fudgeDen := rfl
@[simp] theorem State.storeResults_tfNum (s : State) (k : Calibration) :
    (s.storeResults k).tfNum = BitVec.ofNat 32 k.num := rfl
@[simp] theorem State.storeResults_tfDen (s : State) (k : Calibration) :
    (s.storeResults k).tfDen = BitVec.ofNat 32 k.den := rfl
@[simp] theorem State.storeResults_cntT0h (s : State) (k : Calibration) :
    (s.storeResults k).cntT0h = BitVec.ofNat 32 k.h0 := rfl
@[simp] theorem State.storeResults_cntT0l (s : State) (k : Calibration) :
    (s.storeResults k).cntT0l = BitVec.ofNat 32 k.l0 := rfl
@[simp] theorem State.storeResults_cntT1h (s : State) (k : Calibration) :
    (s.storeResults k).cntT1h = BitVec.ofNat 32 k.h1 := rfl
@[simp] theorem State.storeResults_cntT1l (s : State) (k : Calibration) :
    (s.storeResults k).cntT1l = BitVec.ofNat 32 k.l1 := rfl
@[simp] theorem State.storeResults_cntRes (s : State) (k : Calibration) :
    (s.storeResults k).cntRes = BitVec.ofNat 32 k.rs := rfl
@[simp] theorem State.storeResults_convNs (s : State) (k : Calibration) :
    (s.storeResults k).convNs = s.convNs := rfl
@[simp] theorem State.storeResults_convIters (s : State) (k : Calibration) :
    (s.storeResults k).convIters = s.convIters := rfl
@[simp] theorem State.storeResults_lc (s : State) (k : Calibration) :
    (s.storeResults k).lc = s.lc := rfl
@[simp] theorem State.storeResults_phase (s : State) (k : Calibration) :
    (s.storeResults k).phase = s.phase := rfl
@[simp] theorem State.storeResults_rem (s : State) (k : Calibration) :
    (s.storeResults k).rem = s.rem := rfl
@[simp] theorem State.storeResults_curbit (s : State) (k : Calibration) :
    (s.storeResults k).curbit = s.curbit := rfl
@[simp] theorem State.storeResults_shift (s : State) (k : Calibration) :
    (s.storeResults k).shift = s.shift := rfl
@[simp] theorem State.storeResults_nbits (s : State) (k : Calibration) :
    (s.storeResults k).nbits = s.nbits := rfl
@[simp] theorem State.storeResults_pin (s : State) (k : Calibration) :
    (s.storeResults k).pin = s.pin := rfl
@[simp] theorem State.storeResults_pinOe (s : State) (k : Calibration) :
    (s.storeResults k).pinOe = s.pinOe := rfl
@[simp] theorem State.storeResults_fcode (s : State) (k : Calibration) :
    (s.storeResults k).fcode = s.fcode := rfl
@[simp] theorem State.storeResults_lcode (s : State) (k : Calibration) :
    (s.storeResults k).lcode = s.lcode := rfl
@[simp] theorem State.storeResults_resp (s : State) (k : Calibration) :
    (s.storeResults k).resp = s.resp := rfl
@[simp] theorem State.storeResults_host (s : State) (k : Calibration) :
    (s.storeResults k).host = s.host := rfl
@[simp] theorem State.storeResults_stallPlan (s : State) (k : Calibration) :
    (s.storeResults k).stallPlan = s.stallPlan := rfl
@[simp] theorem State.storeResults_rstPlan (s : State) (k : Calibration) :
    (s.storeResults k).rstPlan = s.rstPlan := rfl
@[simp] theorem State.storeResults_tick (s : State) (k : Calibration) :
    (s.storeResults k).tick = s.tick := rfl

/-! ### The fields after starting a pulse command (R156, R157) -/

@[simp] theorem State.startPulses_params (s : State) (b : Bool) (v : Byte) (m : BitVec 3) :
    (s.startPulses b v m).params = s.params := rfl
@[simp] theorem State.startPulses_clkhz (s : State) (b : Bool) (v : Byte) (m : BitVec 3) :
    (s.startPulses b v m).clkhz = s.clkhz := rfl
@[simp] theorem State.startPulses_fudgeNum (s : State) (b : Bool) (v : Byte) (m : BitVec 3) :
    (s.startPulses b v m).fudgeNum = s.fudgeNum := rfl
@[simp] theorem State.startPulses_fudgeDen (s : State) (b : Bool) (v : Byte) (m : BitVec 3) :
    (s.startPulses b v m).fudgeDen = s.fudgeDen := rfl
@[simp] theorem State.startPulses_tfNum (s : State) (b : Bool) (v : Byte) (m : BitVec 3) :
    (s.startPulses b v m).tfNum = s.tfNum := rfl
@[simp] theorem State.startPulses_tfDen (s : State) (b : Bool) (v : Byte) (m : BitVec 3) :
    (s.startPulses b v m).tfDen = s.tfDen := rfl
@[simp] theorem State.startPulses_cntT0h (s : State) (b : Bool) (v : Byte) (m : BitVec 3) :
    (s.startPulses b v m).cntT0h = s.cntT0h := rfl
@[simp] theorem State.startPulses_cntT0l (s : State) (b : Bool) (v : Byte) (m : BitVec 3) :
    (s.startPulses b v m).cntT0l = s.cntT0l := rfl
@[simp] theorem State.startPulses_cntT1h (s : State) (b : Bool) (v : Byte) (m : BitVec 3) :
    (s.startPulses b v m).cntT1h = s.cntT1h := rfl
@[simp] theorem State.startPulses_cntT1l (s : State) (b : Bool) (v : Byte) (m : BitVec 3) :
    (s.startPulses b v m).cntT1l = s.cntT1l := rfl
@[simp] theorem State.startPulses_cntRes (s : State) (b : Bool) (v : Byte) (m : BitVec 3) :
    (s.startPulses b v m).cntRes = s.cntRes := rfl
@[simp] theorem State.startPulses_convNs (s : State) (b : Bool) (v : Byte) (m : BitVec 3) :
    (s.startPulses b v m).convNs = s.convNs := rfl
@[simp] theorem State.startPulses_convIters (s : State) (b : Bool) (v : Byte) (m : BitVec 3) :
    (s.startPulses b v m).convIters = s.convIters := rfl
@[simp] theorem State.startPulses_lc (s : State) (b : Bool) (v : Byte) (m : BitVec 3) :
    (s.startPulses b v m).lc = s.lc := rfl
@[simp] theorem State.startPulses_phase (s : State) (b : Bool) (v : Byte) (m : BitVec 3) :
    (s.startPulses b v m).phase = .seth := rfl
@[simp] theorem State.startPulses_rem (s : State) (b : Bool) (v : Byte) (m : BitVec 3) :
    (s.startPulses b v m).rem = BitVec.ofNat 40 s.setLength := rfl
@[simp] theorem State.startPulses_curbit (s : State) (b : Bool) (v : Byte) (m : BitVec 3) :
    (s.startPulses b v m).curbit = b := rfl
@[simp] theorem State.startPulses_shift (s : State) (b : Bool) (v : Byte) (m : BitVec 3) :
    (s.startPulses b v m).shift = v := rfl
@[simp] theorem State.startPulses_nbits (s : State) (b : Bool) (v : Byte) (m : BitVec 3) :
    (s.startPulses b v m).nbits = m := rfl
@[simp] theorem State.startPulses_pin (s : State) (b : Bool) (v : Byte) (m : BitVec 3) :
    (s.startPulses b v m).pin = s.pin := rfl
@[simp] theorem State.startPulses_pinOe (s : State) (b : Bool) (v : Byte) (m : BitVec 3) :
    (s.startPulses b v m).pinOe = s.pinOe := rfl
@[simp] theorem State.startPulses_fcode (s : State) (b : Bool) (v : Byte) (m : BitVec 3) :
    (s.startPulses b v m).fcode = s.fcode := rfl
@[simp] theorem State.startPulses_lcode (s : State) (b : Bool) (v : Byte) (m : BitVec 3) :
    (s.startPulses b v m).lcode = s.lcode := rfl
@[simp] theorem State.startPulses_resp (s : State) (b : Bool) (v : Byte) (m : BitVec 3) :
    (s.startPulses b v m).resp = none := rfl
@[simp] theorem State.startPulses_host (s : State) (b : Bool) (v : Byte) (m : BitVec 3) :
    (s.startPulses b v m).host = s.host := rfl
@[simp] theorem State.startPulses_stallPlan (s : State) (b : Bool) (v : Byte) (m : BitVec 3) :
    (s.startPulses b v m).stallPlan = s.stallPlan := rfl
@[simp] theorem State.startPulses_rstPlan (s : State) (b : Bool) (v : Byte) (m : BitVec 3) :
    (s.startPulses b v m).rstPlan = s.rstPlan := rfl
@[simp] theorem State.startPulses_tick (s : State) (b : Bool) (v : Byte) (m : BitVec 3) :
    (s.startPulses b v m).tick = s.tick := rfl

/-! ### The fields after an idle cycle (R100) -/

@[simp] theorem State.idleCycle_params (s : State) :
    s.idleCycle.params = s.params := rfl
@[simp] theorem State.idleCycle_clkhz (s : State) :
    s.idleCycle.clkhz = s.clkhz := rfl
@[simp] theorem State.idleCycle_fudgeNum (s : State) :
    s.idleCycle.fudgeNum = s.fudgeNum := rfl
@[simp] theorem State.idleCycle_fudgeDen (s : State) :
    s.idleCycle.fudgeDen = s.fudgeDen := rfl
@[simp] theorem State.idleCycle_tfNum (s : State) :
    s.idleCycle.tfNum = s.tfNum := rfl
@[simp] theorem State.idleCycle_tfDen (s : State) :
    s.idleCycle.tfDen = s.tfDen := rfl
@[simp] theorem State.idleCycle_cntT0h (s : State) :
    s.idleCycle.cntT0h = s.cntT0h := rfl
@[simp] theorem State.idleCycle_cntT0l (s : State) :
    s.idleCycle.cntT0l = s.cntT0l := rfl
@[simp] theorem State.idleCycle_cntT1h (s : State) :
    s.idleCycle.cntT1h = s.cntT1h := rfl
@[simp] theorem State.idleCycle_cntT1l (s : State) :
    s.idleCycle.cntT1l = s.cntT1l := rfl
@[simp] theorem State.idleCycle_cntRes (s : State) :
    s.idleCycle.cntRes = s.cntRes := rfl
@[simp] theorem State.idleCycle_convNs (s : State) :
    s.idleCycle.convNs = s.convNs := rfl
@[simp] theorem State.idleCycle_convIters (s : State) :
    s.idleCycle.convIters = s.convIters := rfl
@[simp] theorem State.idleCycle_lc (s : State) :
    s.idleCycle.lc = s.lc := rfl
@[simp] theorem State.idleCycle_phase (s : State) :
    s.idleCycle.phase = s.phase := rfl
@[simp] theorem State.idleCycle_rem (s : State) :
    s.idleCycle.rem = s.rem := rfl
@[simp] theorem State.idleCycle_curbit (s : State) :
    s.idleCycle.curbit = s.curbit := rfl
@[simp] theorem State.idleCycle_shift (s : State) :
    s.idleCycle.shift = s.shift := rfl
@[simp] theorem State.idleCycle_nbits (s : State) :
    s.idleCycle.nbits = s.nbits := rfl
@[simp] theorem State.idleCycle_pin (s : State) :
    s.idleCycle.pin = s.pin := rfl
@[simp] theorem State.idleCycle_pinOe (s : State) :
    s.idleCycle.pinOe = s.pinOe := rfl
@[simp] theorem State.idleCycle_fcode (s : State) :
    s.idleCycle.fcode = s.fcode := rfl
@[simp] theorem State.idleCycle_lcode (s : State) :
    s.idleCycle.lcode = s.lcode := rfl
@[simp] theorem State.idleCycle_resp (s : State) :
    s.idleCycle.resp = none := rfl
@[simp] theorem State.idleCycle_host (s : State) :
    s.idleCycle.host = s.host.tail := rfl
@[simp] theorem State.idleCycle_stallPlan (s : State) :
    s.idleCycle.stallPlan = s.stallPlan.tail := rfl
@[simp] theorem State.idleCycle_rstPlan (s : State) :
    s.idleCycle.rstPlan = s.rstPlan.tail := rfl
@[simp] theorem State.idleCycle_tick (s : State) :
    s.idleCycle.tick = s.tick + 1 := rfl

/-! ### The fields after an acceptance (R100) -/

@[simp] theorem State.acceptCycle_params (s : State) :
    s.acceptCycle.params = s.params := rfl
@[simp] theorem State.acceptCycle_clkhz (s : State) :
    s.acceptCycle.clkhz = s.clkhz := rfl
@[simp] theorem State.acceptCycle_fudgeNum (s : State) :
    s.acceptCycle.fudgeNum = s.fudgeNum := rfl
@[simp] theorem State.acceptCycle_fudgeDen (s : State) :
    s.acceptCycle.fudgeDen = s.fudgeDen := rfl
@[simp] theorem State.acceptCycle_tfNum (s : State) :
    s.acceptCycle.tfNum = s.tfNum := rfl
@[simp] theorem State.acceptCycle_tfDen (s : State) :
    s.acceptCycle.tfDen = s.tfDen := rfl
@[simp] theorem State.acceptCycle_cntT0h (s : State) :
    s.acceptCycle.cntT0h = s.cntT0h := rfl
@[simp] theorem State.acceptCycle_cntT0l (s : State) :
    s.acceptCycle.cntT0l = s.cntT0l := rfl
@[simp] theorem State.acceptCycle_cntT1h (s : State) :
    s.acceptCycle.cntT1h = s.cntT1h := rfl
@[simp] theorem State.acceptCycle_cntT1l (s : State) :
    s.acceptCycle.cntT1l = s.cntT1l := rfl
@[simp] theorem State.acceptCycle_cntRes (s : State) :
    s.acceptCycle.cntRes = s.cntRes := rfl
@[simp] theorem State.acceptCycle_convNs (s : State) :
    s.acceptCycle.convNs = s.convNs := rfl
@[simp] theorem State.acceptCycle_convIters (s : State) :
    s.acceptCycle.convIters = s.convIters := rfl
@[simp] theorem State.acceptCycle_lc (s : State) :
    s.acceptCycle.lc = s.lc := rfl
@[simp] theorem State.acceptCycle_phase (s : State) :
    s.acceptCycle.phase = s.phase := rfl
@[simp] theorem State.acceptCycle_rem (s : State) :
    s.acceptCycle.rem = s.rem := rfl
@[simp] theorem State.acceptCycle_curbit (s : State) :
    s.acceptCycle.curbit = s.curbit := rfl
@[simp] theorem State.acceptCycle_shift (s : State) :
    s.acceptCycle.shift = s.shift := rfl
@[simp] theorem State.acceptCycle_nbits (s : State) :
    s.acceptCycle.nbits = s.nbits := rfl
@[simp] theorem State.acceptCycle_pin (s : State) :
    s.acceptCycle.pin = s.pin := rfl
@[simp] theorem State.acceptCycle_pinOe (s : State) :
    s.acceptCycle.pinOe = s.pinOe := rfl
@[simp] theorem State.acceptCycle_fcode (s : State) :
    s.acceptCycle.fcode = s.fcode := rfl
@[simp] theorem State.acceptCycle_lcode (s : State) :
    s.acceptCycle.lcode = s.lcode := rfl
@[simp] theorem State.acceptCycle_resp (s : State) :
    s.acceptCycle.resp = none := rfl
@[simp] theorem State.acceptCycle_host (s : State) :
    s.acceptCycle.host = s.host.tail := rfl
@[simp] theorem State.acceptCycle_stallPlan (s : State) :
    s.acceptCycle.stallPlan = s.stallPlan.tail := rfl
@[simp] theorem State.acceptCycle_rstPlan (s : State) :
    s.acceptCycle.rstPlan = s.rstPlan.tail := rfl
@[simp] theorem State.acceptCycle_tick (s : State) :
    s.acceptCycle.tick = s.tick + 1 := rfl

/-! ### The fields after reset (R56, R220) -/

@[simp] theorem State.inReset_params (s : State) :
    s.inReset.params = s.params := rfl
@[simp] theorem State.inReset_clkhz (s : State) :
    s.inReset.clkhz = 0#32 := rfl
@[simp] theorem State.inReset_fudgeNum (s : State) :
    s.inReset.fudgeNum = 1#32 := rfl
@[simp] theorem State.inReset_fudgeDen (s : State) :
    s.inReset.fudgeDen = 1#32 := rfl
@[simp] theorem State.inReset_tfNum (s : State) :
    s.inReset.tfNum = 0#32 := rfl
@[simp] theorem State.inReset_tfDen (s : State) :
    s.inReset.tfDen = 0#32 := rfl
@[simp] theorem State.inReset_cntT0h (s : State) :
    s.inReset.cntT0h = 0#32 := rfl
@[simp] theorem State.inReset_cntT0l (s : State) :
    s.inReset.cntT0l = 0#32 := rfl
@[simp] theorem State.inReset_cntT1h (s : State) :
    s.inReset.cntT1h = 0#32 := rfl
@[simp] theorem State.inReset_cntT1l (s : State) :
    s.inReset.cntT1l = 0#32 := rfl
@[simp] theorem State.inReset_cntRes (s : State) :
    s.inReset.cntRes = 0#32 := rfl
@[simp] theorem State.inReset_convNs (s : State) :
    s.inReset.convNs = 0#32 := rfl
@[simp] theorem State.inReset_convIters (s : State) :
    s.inReset.convIters = 0#32 := rfl
@[simp] theorem State.inReset_lc (s : State) :
    s.inReset.lc = .uncal := rfl
@[simp] theorem State.inReset_phase (s : State) :
    s.inReset.phase = .idle := rfl
@[simp] theorem State.inReset_rem (s : State) :
    s.inReset.rem = 0#40 := rfl
@[simp] theorem State.inReset_curbit (s : State) :
    s.inReset.curbit = false := rfl
@[simp] theorem State.inReset_shift (s : State) :
    s.inReset.shift = 0#8 := rfl
@[simp] theorem State.inReset_nbits (s : State) :
    s.inReset.nbits = 0#3 := rfl
@[simp] theorem State.inReset_pin (s : State) :
    s.inReset.pin = false := rfl
@[simp] theorem State.inReset_pinOe (s : State) :
    s.inReset.pinOe = false := rfl
@[simp] theorem State.inReset_fcode (s : State) :
    s.inReset.fcode = 0#8 := rfl
@[simp] theorem State.inReset_lcode (s : State) :
    s.inReset.lcode = 0#8 := rfl
@[simp] theorem State.inReset_resp (s : State) :
    s.inReset.resp = none := rfl
@[simp] theorem State.inReset_host (s : State) :
    s.inReset.host = s.host := rfl
@[simp] theorem State.inReset_stallPlan (s : State) :
    s.inReset.stallPlan = s.stallPlan := rfl
@[simp] theorem State.inReset_rstPlan (s : State) :
    s.inReset.rstPlan = s.rstPlan := rfl
@[simp] theorem State.inReset_tick (s : State) :
    s.inReset.tick = s.tick := rfl

/-! ### Lengths and counts depend on parameters and results only -/

@[simp] theorem State.spend_setLength (s : State) :
    s.spend.setLength = s.setLength := rfl
@[simp] theorem State.spend_spinLength (s : State) (w : Word) :
    s.spend.spinLength w = s.spinLength w := rfl
@[simp] theorem State.spend_highCount (s : State) (d : Bool) :
    s.spend.highCount d = s.highCount d := rfl
@[simp] theorem State.spend_lowCount (s : State) (d : Bool) :
    s.spend.lowCount d = s.lowCount d := rfl
@[simp] theorem State.spend_highLength (s : State) (d : Bool) :
    s.spend.highLength d = s.highLength d := rfl
@[simp] theorem State.spend_bitLength (s : State) (d : Bool) :
    s.spend.bitLength d = s.bitLength d := rfl

@[simp] theorem State.respondOk_setLength (s : State) :
    s.respondOk.setLength = s.setLength := rfl
@[simp] theorem State.respondOk_spinLength (s : State) (w : Word) :
    s.respondOk.spinLength w = s.spinLength w := rfl
@[simp] theorem State.respondOk_highCount (s : State) (d : Bool) :
    s.respondOk.highCount d = s.highCount d := rfl
@[simp] theorem State.respondOk_lowCount (s : State) (d : Bool) :
    s.respondOk.lowCount d = s.lowCount d := rfl
@[simp] theorem State.respondOk_highLength (s : State) (d : Bool) :
    s.respondOk.highLength d = s.highLength d := rfl
@[simp] theorem State.respondOk_bitLength (s : State) (d : Bool) :
    s.respondOk.bitLength d = s.bitLength d := rfl

@[simp] theorem State.refuse_setLength (s : State) (c : RefuseCause) :
    (s.refuse c).setLength = s.setLength := rfl
@[simp] theorem State.refuse_spinLength (s : State) (c : RefuseCause) (w : Word) :
    (s.refuse c).spinLength w = s.spinLength w := rfl
@[simp] theorem State.refuse_highCount (s : State) (c : RefuseCause) (d : Bool) :
    (s.refuse c).highCount d = s.highCount d := rfl
@[simp] theorem State.refuse_lowCount (s : State) (c : RefuseCause) (d : Bool) :
    (s.refuse c).lowCount d = s.lowCount d := rfl
@[simp] theorem State.refuse_highLength (s : State) (c : RefuseCause) (d : Bool) :
    (s.refuse c).highLength d = s.highLength d := rfl
@[simp] theorem State.refuse_bitLength (s : State) (c : RefuseCause) (d : Bool) :
    (s.refuse c).bitLength d = s.bitLength d := rfl

@[simp] theorem State.fatal_setLength (s : State) (c : FatalCause) :
    (s.fatal c).setLength = s.setLength := rfl
@[simp] theorem State.fatal_spinLength (s : State) (c : FatalCause) (w : Word) :
    (s.fatal c).spinLength w = s.spinLength w := rfl
@[simp] theorem State.fatal_highCount (s : State) (c : FatalCause) (d : Bool) :
    (s.fatal c).highCount d = s.highCount d := rfl
@[simp] theorem State.fatal_lowCount (s : State) (c : FatalCause) (d : Bool) :
    (s.fatal c).lowCount d = s.lowCount d := rfl
@[simp] theorem State.fatal_highLength (s : State) (c : FatalCause) (d : Bool) :
    (s.fatal c).highLength d = s.highLength d := rfl
@[simp] theorem State.fatal_bitLength (s : State) (c : FatalCause) (d : Bool) :
    (s.fatal c).bitLength d = s.bitLength d := rfl

@[simp] theorem State.startSegment_setLength (s : State) (p : Phase) (n : Nat) :
    (s.startSegment p n).setLength = s.setLength := rfl
@[simp] theorem State.startSegment_spinLength (s : State) (p : Phase) (n : Nat) (w : Word) :
    (s.startSegment p n).spinLength w = s.spinLength w := rfl
@[simp] theorem State.startSegment_highCount (s : State) (p : Phase) (n : Nat) (d : Bool) :
    (s.startSegment p n).highCount d = s.highCount d := rfl
@[simp] theorem State.startSegment_lowCount (s : State) (p : Phase) (n : Nat) (d : Bool) :
    (s.startSegment p n).lowCount d = s.lowCount d := rfl
@[simp] theorem State.startSegment_highLength (s : State) (p : Phase) (n : Nat) (d : Bool) :
    (s.startSegment p n).highLength d = s.highLength d := rfl
@[simp] theorem State.startSegment_bitLength (s : State) (p : Phase) (n : Nat) (d : Bool) :
    (s.startSegment p n).bitLength d = s.bitLength d := rfl

@[simp] theorem State.complete_setLength (s : State) :
    s.complete.setLength = s.setLength := rfl
@[simp] theorem State.complete_spinLength (s : State) (w : Word) :
    s.complete.spinLength w = s.spinLength w := rfl
@[simp] theorem State.complete_highCount (s : State) (d : Bool) :
    s.complete.highCount d = s.highCount d := rfl
@[simp] theorem State.complete_lowCount (s : State) (d : Bool) :
    s.complete.lowCount d = s.lowCount d := rfl
@[simp] theorem State.complete_highLength (s : State) (d : Bool) :
    s.complete.highLength d = s.highLength d := rfl
@[simp] theorem State.complete_bitLength (s : State) (d : Bool) :
    s.complete.bitLength d = s.bitLength d := rfl

@[simp] theorem State.startPulses_setLength (s : State) (b : Bool) (v : Byte) (m : BitVec 3) :
    (s.startPulses b v m).setLength = s.setLength := rfl
@[simp] theorem State.startPulses_spinLength (s : State) (b : Bool) (v : Byte) (m : BitVec 3) (w : Word) :
    (s.startPulses b v m).spinLength w = s.spinLength w := rfl
@[simp] theorem State.startPulses_highCount (s : State) (b : Bool) (v : Byte) (m : BitVec 3) (d : Bool) :
    (s.startPulses b v m).highCount d = s.highCount d := rfl
@[simp] theorem State.startPulses_lowCount (s : State) (b : Bool) (v : Byte) (m : BitVec 3) (d : Bool) :
    (s.startPulses b v m).lowCount d = s.lowCount d := rfl
@[simp] theorem State.startPulses_highLength (s : State) (b : Bool) (v : Byte) (m : BitVec 3) (d : Bool) :
    (s.startPulses b v m).highLength d = s.highLength d := rfl
@[simp] theorem State.startPulses_bitLength (s : State) (b : Bool) (v : Byte) (m : BitVec 3) (d : Bool) :
    (s.startPulses b v m).bitLength d = s.bitLength d := rfl

@[simp] theorem State.idleCycle_setLength (s : State) :
    s.idleCycle.setLength = s.setLength := rfl
@[simp] theorem State.idleCycle_spinLength (s : State) (w : Word) :
    s.idleCycle.spinLength w = s.spinLength w := rfl
@[simp] theorem State.idleCycle_highCount (s : State) (d : Bool) :
    s.idleCycle.highCount d = s.highCount d := rfl
@[simp] theorem State.idleCycle_lowCount (s : State) (d : Bool) :
    s.idleCycle.lowCount d = s.lowCount d := rfl
@[simp] theorem State.idleCycle_highLength (s : State) (d : Bool) :
    s.idleCycle.highLength d = s.highLength d := rfl
@[simp] theorem State.idleCycle_bitLength (s : State) (d : Bool) :
    s.idleCycle.bitLength d = s.bitLength d := rfl

@[simp] theorem State.acceptCycle_setLength (s : State) :
    s.acceptCycle.setLength = s.setLength := rfl
@[simp] theorem State.acceptCycle_spinLength (s : State) (w : Word) :
    s.acceptCycle.spinLength w = s.spinLength w := rfl
@[simp] theorem State.acceptCycle_highCount (s : State) (d : Bool) :
    s.acceptCycle.highCount d = s.highCount d := rfl
@[simp] theorem State.acceptCycle_lowCount (s : State) (d : Bool) :
    s.acceptCycle.lowCount d = s.lowCount d := rfl
@[simp] theorem State.acceptCycle_highLength (s : State) (d : Bool) :
    s.acceptCycle.highLength d = s.highLength d := rfl
@[simp] theorem State.acceptCycle_bitLength (s : State) (d : Bool) :
    s.acceptCycle.bitLength d = s.bitLength d := rfl

end Sys2Proof.Machine
end

