-- ==== Sys2Proof/Laws/Ops.lean ====
section
/-! SUPPORT. Laws/Ops.lean: one lemma per shared operation that says everything it can do: the inputs, the address map, the
calibration, `exec`, the segment ends and the cycle. -/

namespace Sys2Proof.Machine

/-! ### Inputs -/

@[simp] theorem State.spend_rstAt (s : State) (k : Nat) : s.spend.rstAt k = s.rstAt (k + 1) := by
  simp only [State.rstAt, State.spend_rstPlan, State.spend_tick, List.getElem?_tail]
  congr 2; omega

@[simp] theorem State.spend_stallAt (s : State) (k : Nat) : s.spend.stallAt k = s.stallAt (k + 1) := by
  simp only [State.stallAt, State.spend_stallPlan, State.spend_tick, List.getElem?_tail]
  congr 2; omega

/-- The inputs read the plans and the tick only. -/
theorem State.rstAt_congr {s t : State} (hp : s.rstPlan = t.rstPlan) (ht : s.tick = t.tick) (k : Nat) :
    s.rstAt k = t.rstAt k := by simp [State.rstAt, hp, ht]

theorem State.stallAt_congr {s t : State} (hp : s.stallPlan = t.stallPlan) (ht : s.tick = t.tick) (k : Nat) :
    s.stallAt k = t.stallAt k := by simp [State.stallAt, hp, ht]

/-! ### The address map -/

/-- Every register is found at its own offset (R61). -/
theorem regAt_offset (r : Reg) : regAt r.offset = some r := by cases r <;> decide

/-- An offset names a register exactly when it is aligned and not above `0x50` (R64, R67). -/
theorem regAt_eq_none_iff (off : Offset) : regAt off = none ↔ off.toNat % 4 ≠ 0 ∨ 0x50 < off.toNat := by
  have h : ∀ n : Fin 256, regAt (BitVec.ofFin n) = none ↔ n.val % 4 ≠ 0 ∨ 0x50 < n.val := by decide +kernel
  exact h off.toFin

/-- The register found has that offset (R61). -/
theorem offset_of_regAt {off : Offset} {r : Reg} (h : regAt off = some r) : off = r.offset := by
  have := List.find?_some h
  exact (beq_iff_eq.mp this).symm

/-! ### Answers -/

theorem okWith_ne_errResponse (v : Word) : okWith v ≠ errResponse := by simp [okWith, errResponse]

theorem RefuseCause.code_ne_zero (c : RefuseCause) : c.code ≠ 0#8 := by cases c <;> decide

theorem FatalCause.code_ne_zero (c : FatalCause) : c.code ≠ 0#8 := by cases c <;> decide

/-! ### Calibration -/

/-- A successful calibration: what the checks of rule R127 leave (R126). -/
theorem calibrate_eq_ok_iff {p : Params} {c fn fd : Nat} {k : Calibration} :
    calibrate p c fn fd = .ok k ↔
      c ≠ 0 ∧ fn ≠ 0 ∧ fd ≠ 0 ∧ k.someZero = false ∧ k.someOverflow = false ∧ k = counts p c fn fd := by
  unfold calibrate
  split_ifs with h1 h2 h3 h4
  · simp [h1]
  · simp only [false_iff]; tauto
  · simp only [false_iff]
    rintro ⟨-, -, -, hz, -, rfl⟩; simp [h3] at hz
  · simp only [false_iff]
    rintro ⟨-, -, -, -, ho, rfl⟩; simp [h4] at ho
  · push Not at h2
    simp only [Except.ok.injEq]
    constructor
    · rintro rfl; exact ⟨h1, h2.1, h2.2, by simpa using h3, by simpa using h4, rfl⟩
    · rintro ⟨-, -, -, -, -, rfl⟩; rfl

/-- The end of CALC: CALD with the results, or FAULT with a cause (R126, R191). -/
theorem finishCal_cases (s : State) :
    (∃ k, s.calibration = .ok k ∧ finishCal s = State.complete { s.storeResults k with lc := .cald }) ∨
    (∃ c, s.calibration = .error c ∧ finishCal s = s.fatal c) := by
  unfold finishCal
  cases h : s.calibration with
  | ok k => exact .inl ⟨k, rfl, rfl⟩
  | error c => exact .inr ⟨c, rfl, rfl⟩

/-! ### exec -/

/-- Everything a transaction can leave in its acceptance cycle (R101 to R104, R126, R129, R155 to R158). -/
inductive ExecTo (i : Instr) (s : State) : State → Prop where
  | refuse (c : RefuseCause) : ExecTo i s (s.refuse c)
  | read (off : Offset) (r : Reg) (h : i = .rd off) : ExecTo i s { s with resp := okWith (s.readReg r) }
  | clkhz (d : Word) (h : s.lc = .uncal) : ExecTo i s (State.respondOk { s with clkhz := d })
  | fudgeNum (d : Word) (h : s.lc = .uncal) : ExecTo i s (State.respondOk { s with fudgeNum := d })
  | fudgeDen (d : Word) (h : s.lc = .uncal) : ExecTo i s (State.respondOk { s with fudgeDen := d })
  | convNs (d : Word) : ExecTo i s (State.respondOk { s with convNs := d })
  | conv (d : Word) (h : s.lc = .cald ∨ s.lc = .ready) : ExecTo i s (State.respondOk { s with convIters := d })
  | calculate (h : s.lc = .uncal) : ExecTo i s (s.startSegment .calculate s.params.calCycles.val)
  | seti (h : s.lc = .cald) : ExecTo i s (s.startSegment .seti s.setLength)
  | pulses (b : Bool) (v : Byte) (m : BitVec 3) (h : s.lc = .ready) (hb : m ≠ 0#3 → firstBit v = b) :
      ExecTo i s (s.startPulses b v m)
  | latch (h : s.lc = .ready) : ExecTo i s (s.startSegment .spinr (s.spinLength s.cntRes))

theorem execCal_cases {i : Instr} {s t : State} (h : execCal s = .next t) : ExecTo i s t := by
  by_cases hl : s.lc = .uncal
  · rw [execCal, if_pos hl] at h; cases h; exact .calculate hl
  · rw [execCal, if_neg hl] at h; cases h; exact .refuse _

theorem execInit_cases {i : Instr} {s t : State} (h : execInit s = .next t) : ExecTo i s t := by
  by_cases hl : s.lc = .cald
  · rw [execInit, if_pos hl] at h; cases h; exact .seti hl
  · rw [execInit, if_neg hl] at h; cases h; exact .refuse _

theorem execConv_cases {i : Instr} {s t : State} (h : execConv s = .next t) : ExecTo i s t := by
  by_cases hl : s.lc = .cald ∨ s.lc = .ready
  · rw [execConv, if_pos hl] at h
    by_cases h0 : s.tfDen.toNat * s.fudgeDen.toNat = 0
    · rw [if_pos h0] at h; cases h
    · rw [if_neg h0] at h
      by_cases hq : 2 ^ 32 ≤ s.convQuotient
      · rw [if_pos hq] at h; cases h; exact .refuse _
      · rw [if_neg hq] at h; cases h; exact .conv _ hl
  · rw [execConv, if_neg hl] at h; cases h; exact .refuse _

theorem execBit_cases {i : Instr} {b : Bool} {s t : State} (h : execBit b s = .next t) : ExecTo i s t := by
  by_cases hl : s.lc = .ready
  · rw [execBit, if_pos hl] at h; cases h; exact .pulses b 0#8 0#3 hl (by simp)
  · rw [execBit, if_neg hl] at h; cases h; exact .refuse _

theorem execByte_cases {i : Instr} {v : Byte} {s t : State} (h : execByte v s = .next t) : ExecTo i s t := by
  by_cases hl : s.lc = .ready
  · rw [execByte, if_pos hl] at h; cases h; exact .pulses _ v 7#3 hl (fun _ => rfl)
  · rw [execByte, if_neg hl] at h; cases h; exact .refuse _

theorem execLatch_cases {i : Instr} {s t : State} (h : execLatch s = .next t) : ExecTo i s t := by
  by_cases hl : s.lc = .ready
  · rw [execLatch, if_pos hl] at h; cases h; exact .latch hl
  · rw [execLatch, if_neg hl] at h; cases h; exact .refuse _

theorem dispatchCommand_cases {i : Instr} {cw : Word} {s t : State} (h : dispatchCommand cw s = .next t) :
    ExecTo i s t := by
  unfold dispatchCommand at h
  split at h
  · exact execCal_cases h
  · exact execInit_cases h
  · exact execConv_cases h
  · exact execBit_cases h
  · exact execByte_cases h
  · exact execLatch_cases h
  all_goals cases h; exact .refuse _

theorem lockedWrite_cases {s w t : State} (h : s.lockedWrite w = .next t) :
    (s.lc = .uncal ∧ t = w.respondOk) ∨ t = s.refuse .lockedWrite := by
  by_cases hl : s.lc = .uncal
  · rw [State.lockedWrite, if_pos hl] at h; cases h; exact .inl ⟨hl, rfl⟩
  · rw [State.lockedWrite, if_neg hl] at h; cases h; exact .inr rfl

theorem execWr_cases {i : Instr} {off : Offset} {d : Word} {s t : State} (h : execWr off d s = .next t) :
    ExecTo i s t := by
  unfold execWr at h
  split at h
  · cases h; exact .refuse _
  · exact dispatchCommand_cases h
  · rcases lockedWrite_cases h with ⟨hl, rfl⟩ | rfl
    · exact .clkhz d hl
    · exact .refuse _
  · rcases lockedWrite_cases h with ⟨hl, rfl⟩ | rfl
    · exact .fudgeNum d hl
    · exact .refuse _
  · rcases lockedWrite_cases h with ⟨hl, rfl⟩ | rfl
    · exact .fudgeDen d hl
    · exact .refuse _
  · cases h; exact .convNs d
  · cases h; exact .refuse _

/-- `exec` leaves one of these states. -/
theorem exec_cases {i : Instr} {s t : State} (h : exec i s = .next t) : ExecTo i s t := by
  cases i with
  | rd off =>
    simp only [exec, execRd] at h
    split at h <;> cases h
    · exact .read off _ rfl
    · exact .refuse _
  | wr off d => exact execWr_cases h
  | cal => exact execCal_cases h
  | init => exact execInit_cases h
  | conv => exact execConv_cases h
  | bit b => exact execBit_cases h
  | byte v => exact execByte_cases h
  | latch => exact execLatch_cases h

/-- A transaction faults only in `CONV`'s zero divisor, in a state no run reaches (R129). -/
theorem exec_ne_fault {i : Instr} {s : State} {f : Fault}
    (hd : s.lc = .cald ∨ s.lc = .ready → s.tfDen.toNat * s.fudgeDen.toNat ≠ 0) : exec i s ≠ .fault f := by
  have conv : execConv s ≠ .fault f := by
    unfold execConv; split_ifs with hl h0
    · exact absurd h0 (hd hl)
    all_goals simp
  cases i with
  | rd off => simp only [exec, execRd]; split <;> simp
  | cal => simp only [exec, execCal]; split_ifs <;> simp
  | init => simp only [exec, execInit]; split_ifs <;> simp
  | conv => exact conv
  | bit b => simp only [exec, execBit]; split_ifs <;> simp
  | byte v => simp only [exec, execByte]; split_ifs <;> simp
  | latch => simp only [exec, execLatch]; split_ifs <;> simp
  | wr off data =>
    simp only [exec, execWr, State.lockedWrite]
    split
    · simp
    · simp only [dispatchCommand]
      split
      · simp only [execCal]; split_ifs <;> simp
      · simp only [execInit]; split_ifs <;> simp
      · exact conv
      · simp only [execBit]; split_ifs <;> simp
      · simp only [execByte]; split_ifs <;> simp
      · simp only [execLatch]; split_ifs <;> simp
      all_goals simp
    all_goals first | (split_ifs <;> simp) | simp

/-- No meaning refuses: a refusal of the spec is a next state (R192). -/
theorem exec_ne_refused {i : Instr} {s : State} {r : Refusal} : exec i s ≠ .refused r := by
  have conv : execConv s ≠ .refused r := by unfold execConv; split_ifs <;> simp
  cases i with
  | rd off => simp only [exec, execRd]; split <;> simp
  | cal => simp only [exec, execCal]; split_ifs <;> simp
  | init => simp only [exec, execInit]; split_ifs <;> simp
  | conv => exact conv
  | bit b => simp only [exec, execBit]; split_ifs <;> simp
  | byte v => simp only [exec, execByte]; split_ifs <;> simp
  | latch => simp only [exec, execLatch]; split_ifs <;> simp
  | wr off data =>
    simp only [exec, execWr, State.lockedWrite]
    split
    · simp
    · simp only [dispatchCommand]
      split
      · simp only [execCal]; split_ifs <;> simp
      · simp only [execInit]; split_ifs <;> simp
      · exact conv
      · simp only [execBit]; split_ifs <;> simp
      · simp only [execByte]; split_ifs <;> simp
      · simp only [execLatch]; split_ifs <;> simp
      all_goals simp
    all_goals first | (split_ifs <;> simp) | simp

/-! ### The cycle -/

theorem step_of_reset {s : State} (h : s.rstAt 0 = true) : step s = .next s.resetCycle := by
  simp [step, State.activity, h]

theorem step_of_accept {s : State} {r : Record} {rest : List HostItem} {i : Instr} (hr : s.rstAt 0 = false)
    (hp : s.phase = .idle) (hh : s.host = .txn r :: rest) (hd : decode r = .ok i) :
    step s = exec i s.acceptCycle := by
  simp [step, State.activity, hr, hp, hh, hd]

theorem step_of_malformed {s : State} {r : Record} {rest : List HostItem} {e : DecodeError} (hr : s.rstAt 0 = false)
    (hp : s.phase = .idle) (hh : s.host = .txn r :: rest) (hd : decode r = .error e) :
    step s = .refused (.malformedRecord e) := by
  simp [step, State.activity, hr, hp, hh, hd]

theorem step_of_idle {s : State} (hr : s.rstAt 0 = false) (hp : s.phase = .idle)
    (hh : ∀ r rest, s.host ≠ .txn r :: rest) : step s = .next s.idleCycle := by
  rcases hs : s.host with _ | ⟨_ | r, rest⟩
  · simp [step, State.activity, hr, hp, hs]
  · simp [step, State.activity, hr, hp, hs]
  · exact absurd hs (hh r rest)

theorem step_of_stalled {s : State} (hr : s.rstAt 0 = false) (hp : s.phase ≠ .idle) (hs : s.stallAt 0 = true) :
    step s = .next s.spend := by
  simp [step, State.activity, hr, hp, hs, State.stalledCycle]

theorem step_of_busy {s : State} (hr : s.rstAt 0 = false) (hp : s.phase ≠ .idle) (hs : s.stallAt 0 = false) :
    step s = .next (busyCycle s.spend) := by
  simp [step, State.activity, hr, hp, hs, State.seqCycle]

/-- Everything a cycle that goes on can be (R153, R220). -/
theorem step_cases {s t : State} (h : step s = .next t) :
    (s.rstAt 0 = true ∧ t = s.resetCycle) ∨
    (s.rstAt 0 = false ∧ s.phase = .idle ∧ (∀ r rest, s.host ≠ .txn r :: rest) ∧ t = s.idleCycle) ∨
    (s.rstAt 0 = false ∧ s.phase = .idle ∧ ∃ r rest i, s.host = .txn r :: rest ∧ decode r = .ok i ∧
      exec i s.acceptCycle = .next t) ∨
    (s.rstAt 0 = false ∧ s.phase ≠ .idle ∧ s.stallAt 0 = true ∧ t = s.spend) ∨
    (s.rstAt 0 = false ∧ s.phase ≠ .idle ∧ s.stallAt 0 = false ∧ t = busyCycle s.spend) := by
  cases hr : s.rstAt 0 with
  | true => rw [step_of_reset hr] at h; injection h with h; exact .inl ⟨rfl, h.symm⟩
  | false =>
    by_cases hp : s.phase = .idle
    · by_cases hh : ∃ r rest, s.host = .txn r :: rest
      · obtain ⟨r, rest, hh⟩ := hh
        cases hd : decode r with
        | ok i => rw [step_of_accept hr hp hh hd] at h; exact .inr (.inr (.inl ⟨rfl, hp, r, rest, i, hh, hd, h⟩))
        | error e => rw [step_of_malformed hr hp hh hd] at h; cases h
      · push Not at hh
        rw [step_of_idle hr hp hh] at h; injection h with h
        exact .inr (.inl ⟨rfl, hp, hh, h.symm⟩)
    · cases hs : s.stallAt 0 with
      | true =>
        rw [step_of_stalled hr hp hs] at h; injection h with h
        exact .inr (.inr (.inr (.inl ⟨rfl, hp, rfl, h.symm⟩)))
      | false =>
        rw [step_of_busy hr hp hs] at h; injection h with h
        exact .inr (.inr (.inr (.inr ⟨rfl, hp, rfl, h.symm⟩)))

/-- A counting cycle counts or ends its segment (R153). -/
theorem busyCycle_cases (s : State) :
    (1#40 < s.rem ∧ busyCycle s = { s with rem := s.rem - 1#40 }) ∨ (¬1#40 < s.rem ∧ busyCycle s = segmentEnd s) := by
  unfold busyCycle; split_ifs with h
  · exact .inl ⟨h, rfl⟩
  · exact .inr ⟨h, rfl⟩

/-- Everything the end of a segment can be (R154). -/
inductive SegmentEndTo (s : State) : State → Prop where
  | idle (h : s.phase = .idle) : SegmentEndTo s s
  | calibrated (k : Calibration) (h : s.phase = .calculate) (hk : s.calibration = .ok k) :
      SegmentEndTo s (State.complete { s.storeResults k with lc := .cald })
  | fatal (c : FatalCause) (h : s.phase = .calculate) (hc : s.calibration = .error c) : SegmentEndTo s (s.fatal c)
  | init (h : s.phase = .seti) :
      SegmentEndTo s (State.complete { s with pin := false, pinOe := true, lc := .ready })
  | high (h : s.phase = .seth) :
      SegmentEndTo s (State.startSegment { s with pin := true } .spinh (s.spinLength (s.highCount s.curbit)))
  | setLow (h : s.phase = .spinh) : SegmentEndTo s (s.startSegment .setl s.setLength)
  | low (h : s.phase = .setl) :
      SegmentEndTo s (State.startSegment { s with pin := false } .spinl (s.spinLength (s.lowCount s.curbit)))
  | last (h : s.phase = .spinl) (hn : s.nbits = 0#3) : SegmentEndTo s s.complete
  | next (h : s.phase = .spinl) (hn : s.nbits ≠ 0#3) :
      SegmentEndTo s (s.startPulses (firstBit (shiftOut s.shift)) (shiftOut s.shift) (s.nbits - 1#3))
  | latched (h : s.phase = .spinr) : SegmentEndTo s s.complete

theorem segmentEnd_of_idle {s : State} (h : s.phase = .idle) : segmentEnd s = s := by rw [segmentEnd, h]
theorem segmentEnd_of_calc {s : State} (h : s.phase = .calculate) : segmentEnd s = finishCal s := by rw [segmentEnd, h]
theorem segmentEnd_of_seti {s : State} (h : s.phase = .seti) : segmentEnd s = finishInit s := by rw [segmentEnd, h]
theorem segmentEnd_of_seth {s : State} (h : s.phase = .seth) :
    segmentEnd s = State.startSegment { s with pin := true } .spinh (s.spinLength (s.highCount s.curbit)) := by
  unfold segmentEnd; rw [h]
theorem segmentEnd_of_spinh {s : State} (h : s.phase = .spinh) :
    segmentEnd s = s.startSegment .setl s.setLength := by unfold segmentEnd; rw [h]
theorem segmentEnd_of_setl {s : State} (h : s.phase = .setl) :
    segmentEnd s = State.startSegment { s with pin := false } .spinl (s.spinLength (s.lowCount s.curbit)) := by
  unfold segmentEnd; rw [h]
theorem segmentEnd_of_spinl_last {s : State} (h : s.phase = .spinl) (hn : s.nbits = 0#3) :
    segmentEnd s = s.complete := by unfold segmentEnd; rw [h]; simp only [finishBit, if_pos hn]
theorem segmentEnd_of_spinl_next {s : State} (h : s.phase = .spinl) (hn : s.nbits ≠ 0#3) :
    segmentEnd s = s.startPulses (firstBit (shiftOut s.shift)) (shiftOut s.shift) (s.nbits - 1#3) := by
  unfold segmentEnd; rw [h]; simp only [finishBit, if_neg hn]; rfl
theorem segmentEnd_of_spinr {s : State} (h : s.phase = .spinr) : segmentEnd s = s.complete := by
  unfold segmentEnd; rw [h]

/-- `segmentEnd` leaves one of these states. -/
theorem segmentEnd_cases (s : State) : SegmentEndTo s (segmentEnd s) := by
  cases h : s.phase with
  | idle => rw [segmentEnd_of_idle h]; exact .idle h
  | calculate =>
    rw [segmentEnd_of_calc h]
    rcases finishCal_cases s with ⟨k, hk, he⟩ | ⟨c, hc, he⟩ <;> rw [he]
    · exact .calibrated k h hk
    · exact .fatal c h hc
  | seti => rw [segmentEnd_of_seti h]; exact .init h
  | seth => rw [segmentEnd_of_seth h]; exact .high h
  | spinh => rw [segmentEnd_of_spinh h]; exact .setLow h
  | setl => rw [segmentEnd_of_setl h]; exact .low h
  | spinl =>
    by_cases hn : s.nbits = 0#3
    · rw [segmentEnd_of_spinl_last h hn]; exact .last h hn
    · rw [segmentEnd_of_spinl_next h hn]; exact .next h hn
  | spinr => rw [segmentEnd_of_spinr h]; exact .latched h

end Sys2Proof.Machine
end

