-- ==== Sys2Proof/Laws/Calibration.lean ====
section
/-! SUPPORT. Laws/Calibration.lean: what a calibrated state holds, as numbers, and the arithmetic of the calibrator that
every proof about a count needs. -/

namespace Sys2Proof.Machine

/-! ### The reduced ratio (R121) -/

theorem tickNum_mul_gcd (c : Nat) : tickNum c * Nat.gcd c nsPerS = c := Nat.div_mul_cancel (Nat.gcd_dvd_left _ _)

theorem tickDen_mul_gcd (c : Nat) : tickDen c * Nat.gcd c nsPerS = 1000000000 :=
  Nat.div_mul_cancel (Nat.gcd_dvd_right _ _)

theorem tick_pos {c : Nat} (h : 0 < c) : 0 < tickNum c ∧ 0 < tickDen c :=
  ⟨Nat.div_pos (Nat.gcd_le_left _ h) (Nat.gcd_pos_of_pos_left _ h),
    Nat.div_pos (Nat.gcd_le_right _ (by decide)) (Nat.gcd_pos_of_pos_left _ h)⟩

/-! ### Roundings (R16) -/

theorem floor_bounds (x q : Nat) (h : 0 < q) : x / q * q ≤ x ∧ x < (x / q + 1) * q :=
  ⟨Nat.div_mul_le_self _ _, by have := Nat.lt_div_mul_add (a := x) h; rw [Nat.add_mul, Nat.one_mul]; omega⟩

theorem cdiv_bounds (x q : Nat) (h : 0 < q) : x ≤ cdiv x q * q ∧ cdiv x q * q < x + q := by
  have := Nat.div_mul_le_self (x + q - 1) q
  have := Nat.lt_div_mul_add (a := x + q - 1) h
  unfold cdiv; omega

/-! ### Stored results (R126) -/

/-- A state holds a calibration's results when its seven registers do. -/
theorem storeResults_eq_self_iff (s : State) (k : Calibration) :
    s.storeResults k = s ↔
      s.tfNum = BitVec.ofNat 32 k.num ∧ s.tfDen = BitVec.ofNat 32 k.den ∧ s.cntT0h = BitVec.ofNat 32 k.h0 ∧
      s.cntT0l = BitVec.ofNat 32 k.l0 ∧ s.cntT1h = BitVec.ofNat 32 k.h1 ∧ s.cntT1l = BitVec.ofNat 32 k.l1 ∧
      s.cntRes = BitVec.ofNat 32 k.rs := by
  constructor
  · intro h; rw [← h]; simp
  · rintro ⟨a, b, c, d, e, f, g⟩
    unfold State.storeResults; rw [← a, ← b, ← c, ← d, ← e, ← f, ← g]

/-- Being calibrated reads the parameters, the configuration and the results only. -/
theorem State.Calibrated.congr {s t : State} (h : s.Calibrated)
    (hp : t.params = s.params ∧ t.clkhz = s.clkhz ∧ t.fudgeNum = s.fudgeNum ∧ t.fudgeDen = s.fudgeDen ∧
      t.tfNum = s.tfNum ∧ t.tfDen = s.tfDen ∧ t.cntT0h = s.cntT0h ∧ t.cntT0l = s.cntT0l ∧ t.cntT1h = s.cntT1h ∧
      t.cntT1l = s.cntT1l ∧ t.cntRes = s.cntRes) : t.Calibrated := by
  obtain ⟨k, hk, hs⟩ := h
  obtain ⟨h1, h2, h3, h4, h5, h6, h7, h8, h9, h10, h11⟩ := hp
  refine ⟨k, ?_, ?_⟩
  · unfold State.calibration at *; rw [h1, h2, h3, h4]; exact hk
  · rw [storeResults_eq_self_iff] at *; rw [h5, h6, h7, h8, h9, h10, h11]; exact hs

/-- The results of a calibrated state are the exact numbers: nothing was truncated when they were stored. -/
theorem State.Calibrated.results {s : State} (h : s.Calibrated) :
    let k := counts s.params s.clkhz.toNat s.fudgeNum.toNat s.fudgeDen.toNat
    0 < s.clkhz.toNat ∧ 0 < s.fudgeNum.toNat ∧ 0 < s.fudgeDen.toNat ∧ k.someZero = false ∧
    s.tfNum.toNat = k.num ∧ s.tfDen.toNat = k.den ∧ s.cntT0h.toNat = k.h0 ∧ s.cntT0l.toNat = k.l0 ∧
    s.cntT1h.toNat = k.h1 ∧ s.cntT1l.toNat = k.l1 ∧ s.cntRes.toNat = k.rs := by
  obtain ⟨k, hk, hs⟩ := h
  obtain ⟨h1, h2, h3, hz, ho, rfl⟩ := calibrate_eq_ok_iff.1 hk
  obtain ⟨a, b, c, d, e, f, g⟩ := (storeResults_eq_self_iff _ _).1 hs
  simp only [Calibration.someOverflow, Bool.or_eq_false_iff, decide_eq_false_iff_not] at ho
  have exact_of : ∀ {x : Word} {n : Nat}, x = BitVec.ofNat 32 n → ¬2 ^ 32 ≤ n → x.toNat = n := by
    intro x n hx hn; rw [hx]; exact (BitVec.toNat_ofNat _ _).trans (Nat.mod_eq_of_lt (Nat.not_le.1 hn))
  have hn : tickNum s.clkhz.toNat < 2 ^ 32 := lt_of_le_of_lt (Nat.div_le_self _ _) s.clkhz.isLt
  have hd : tickDen s.clkhz.toNat < 2 ^ 32 := lt_of_le_of_lt (Nat.div_le_self _ _) (by decide)
  exact ⟨by omega, by omega, by omega, hz, exact_of a (Nat.not_le.2 hn), exact_of b (Nat.not_le.2 hd),
    exact_of c ho.1.1.1.1, exact_of d ho.1.1.1.2, exact_of e ho.1.1.2, exact_of f ho.1.2, exact_of g ho.2⟩

end Sys2Proof.Machine
end

