-- ==== Sys2Proof/Laws/Encoding.lean ====
section
/-! SUPPORT. Laws/Encoding.lean: the fields of records and command words as numbers (R81, R82), so that no proof about an
encoding reads single bits. -/

namespace Sys2Proof

/-! ### The numbers of what the encoder writes -/

theorem toNat_append (n m : Nat) (a : BitVec n) (b : BitVec m) : (a ++ b).toNat = a.toNat * 2 ^ m + b.toNat := by
  rw [BitVec.toNat_append, ← Nat.shiftLeft_add_eq_or_of_lt b.isLt, Nat.shiftLeft_eq]

theorem writeRecord_toNat (off : Offset) (d : Word) :
    (writeRecord off d).toNat = 2 ^ 40 + off.toNat * 2 ^ 32 + d.toNat := by
  unfold writeRecord
  rw [toNat_append 16 32, toNat_append 8 8]
  simp; omega

theorem readRecord_toNat (off : Offset) : (readRecord off).toNat = off.toNat * 2 ^ 32 := by
  unfold readRecord
  rw [toNat_append 16 32, toNat_append 8 8]
  simp

theorem commandWord_toNat (op imm8 : BitVec 8) : (commandWord op imm8).toNat = op.toNat * 2 ^ 24 + imm8.toNat := by
  unfold commandWord
  rw [toNat_append 24 8, toNat_append 8 16]
  simp; omega

/-! ### The fields as numbers -/

theorem Record.zeroField_toNat (r : Record) : (Record.zeroField r).toNat = r.toNat / 2 ^ 41 := by
  have := r.isLt
  simp [Record.zeroField, BitVec.extractLsb'_toNat, Nat.shiftRight_eq_div_pow]; omega

theorem Record.isWrite_eq (r : Record) : Record.isWrite r = decide (r.toNat / 2 ^ 40 % 2 = 1) := by
  rw [Record.isWrite, BitVec.getLsbD, Nat.testBit_eq_decide_div_mod_eq]

theorem Record.off_toNat (r : Record) : (Record.off r).toNat = r.toNat / 2 ^ 32 % 256 := by
  simp [Record.off, BitVec.extractLsb'_toNat, Nat.shiftRight_eq_div_pow]

theorem Record.data_toNat (r : Record) : (Record.data r).toNat = r.toNat % 2 ^ 32 := by
  simp [Record.data, BitVec.extractLsb'_toNat]

theorem Word.op_toNat (w : Word) : (Word.op w).toNat = w.toNat / 2 ^ 24 := by
  have := w.isLt
  simp [Word.op, BitVec.extractLsb'_toNat, Nat.shiftRight_eq_div_pow]; omega

theorem Word.rsv_toNat (w : Word) : (Word.rsv w).toNat = w.toNat / 2 ^ 8 % 2 ^ 16 := by
  simp [Word.rsv, BitVec.extractLsb'_toNat, Nat.shiftRight_eq_div_pow]

theorem Word.imm8_toNat (w : Word) : (Word.imm8 w).toNat = w.toNat % 2 ^ 8 := by
  simp [Word.imm8, BitVec.extractLsb'_toNat]

end Sys2Proof
end

