-- ==== Sys2Proof/Laws/Runs.lean ====
section
/-! SUPPORT. Laws/Runs.lean: runs of several cycles: how they split, what spending cycles leaves, and what one segment of
the sequencer does, so that no proof about a command unrolls its cycles. -/

namespace Sys2Proof.Machine

/-! ### How runs split -/

theorem runFor_succ_of {n : Nat} {s t : State} (h : step s = .next t) : runFor (n + 1) s = runFor n t := by
  rw [runFor, h]

theorem traceFor_succ_of {n : Nat} {s t : State} (h : step s = .next t) :
    traceFor (n + 1) s = s.level :: traceFor n t := by rw [traceFor, h]

theorem responsesFor_succ_of {n : Nat} {s t : State} (h : step s = .next t) :
    responsesFor (n + 1) s = t.resp.toList ++ responsesFor n t := by rw [responsesFor, h]

/-- A run goes on from where its first part ends. -/
theorem runFor_add {m : Nat} {s t : State} (h : runFor m s = .next t) (n : Nat) : runFor (m + n) s = runFor n t := by
  induction m generalizing s with
  | zero => cases h; rw [Nat.zero_add]
  | succ m ih =>
    rw [Nat.succ_add_eq_add_succ]
    cases hs : step s with
    | next u =>
      rw [runFor, hs] at h
      rw [Nat.add_succ, runFor_succ_of hs, ih h]
    | fault f => rw [runFor, hs] at h; cases h
    | refused r => rw [runFor, hs] at h; cases h

/-- A run that goes on for `m + n` cycles has a state after `m`. -/
theorem runFor_split {m n : Nat} {s t : State} (h : runFor (m + n) s = .next t) :
    ∃ u, runFor m s = .next u ∧ runFor n u = .next t := by
  induction m generalizing s with
  | zero => exact ⟨s, rfl, by rwa [Nat.zero_add] at h⟩
  | succ m ih =>
    rw [Nat.succ_add, runFor] at h
    cases hs : step s with
    | next u => rw [hs] at h; rw [runFor_succ_of hs]; exact ih h
    | fault f => rw [hs] at h; cases h
    | refused r => rw [hs] at h; cases h

theorem traceFor_add {m : Nat} {s t : State} (h : runFor m s = .next t) (n : Nat) :
    traceFor (m + n) s = traceFor m s ++ traceFor n t := by
  induction m generalizing s with
  | zero => cases h; rw [Nat.zero_add]; rfl
  | succ m ih =>
    cases hs : step s with
    | next u =>
      rw [runFor, hs] at h
      rw [Nat.succ_add, traceFor_succ_of hs, traceFor_succ_of hs, ih h, List.cons_append]
    | fault f => rw [runFor, hs] at h; cases h
    | refused r => rw [runFor, hs] at h; cases h

theorem responsesFor_add {m : Nat} {s t : State} (h : runFor m s = .next t) (n : Nat) :
    responsesFor (m + n) s = responsesFor m s ++ responsesFor n t := by
  induction m generalizing s with
  | zero => cases h; rw [Nat.zero_add]; rfl
  | succ m ih =>
    cases hs : step s with
    | next u =>
      rw [runFor, hs] at h
      rw [Nat.succ_add, responsesFor_succ_of hs, responsesFor_succ_of hs, ih h, List.append_assoc]
    | fault f => rw [runFor, hs] at h; cases h
    | refused r => rw [runFor, hs] at h; cases h

/-! ### The inputs along a run -/

@[simp] theorem State.afterCycles_rstAt (s : State) (n k : Nat) : (s.afterCycles n).rstAt k = s.rstAt (n + k) := by
  simp [State.afterCycles, State.rstAt, Nat.add_assoc]

@[simp] theorem State.afterCycles_stallAt (s : State) (n k : Nat) :
    (s.afterCycles n).stallAt k = s.stallAt (n + k) := by
  simp [State.afterCycles, State.stallAt, Nat.add_assoc]

theorem State.spend_afterCycles (s : State) (n : Nat) : s.spend.afterCycles n = s.afterCycles (n + 1) := by
  simp [State.afterCycles, State.spend, Nat.add_comm, Nat.add_left_comm]

theorem State.afterCycles_afterCycles (s : State) (m n : Nat) :
    (s.afterCycles m).afterCycles n = s.afterCycles (m + n) := by
  simp [State.afterCycles, Nat.add_assoc]

theorem State.afterCycles_one (s : State) : s.afterCycles 1 = s.spend := by
  simp [State.afterCycles, State.spend]

theorem State.NoReset.of_inputs {s t : State} {m n : Nat} (h : s.NoReset (m + n))
    (ht : ∀ k, t.rstAt k = s.rstAt (m + k)) : t.NoReset n := by
  intro k hk; rw [ht]; exact h _ (by omega)

theorem State.NoStall.of_inputs {s t : State} {a m n : Nat} (h : s.NoStall a (m + n)) (ha : a ≤ m)
    (ht : ∀ k, t.stallAt k = s.stallAt (m + k)) : t.NoStall 0 n := by
  intro k _ hk; rw [ht]; exact h _ (by omega) (by omega)

@[simp] theorem State.stallCount_zero (s : State) : s.stallCount 0 = 0 := rfl

theorem State.stallCount_succ (s : State) (n : Nat) :
    s.stallCount (n + 1) = s.stallCount n + (s.stallAt n).toNat := by
  rw [State.stallCount, State.stallCount, List.range_succ, List.countP_append]
  cases h : s.stallAt n <;> simp [h]

theorem State.stallCount_le (s : State) (n : Nat) : s.stallCount n ≤ n := by
  simpa [State.stallCount] using List.countP_le_length (p := s.stallAt) (l := List.range n)

theorem State.stallCount_add {s t : State} {m : Nat} (n : Nat) (ht : ∀ k, t.stallAt k = s.stallAt (m + k)) :
    s.stallCount (m + n) = s.stallCount m + t.stallCount n := by
  induction n with
  | zero => simp
  | succ n ih => rw [← Nat.add_assoc, State.stallCount_succ, State.stallCount_succ, ih, ht]; omega

/-! ### Levels -/

theorem State.level_eq {s : State} (h : s.rstAt 0 = false) : s.level = levelOf s.pinOe s.pin := by
  simp [State.level, State.visible, h]

/-! ### Segments (R15, R153) -/

/-- The end of a segment overwrites REM and the response, so it does not matter what they were. -/
theorem segmentEnd_congr {s : State} (hp : s.phase ≠ .idle) (r : Cycles) (x : Option Response) :
    segmentEnd { s with rem := r, resp := x } = segmentEnd s := by
  obtain ⟨_, _, _, _, _, _, _, _, _, _, _, _, _, _, phase, _, _, _, nbits⟩ := s
  cases phase
  case idle => exact absurd rfl hp
  case calculate =>
    show finishCal _ = finishCal _
    unfold finishCal
    simp only [State.calibration]
    split <;> rfl
  case spinl =>
    by_cases hn : nbits = 0#3
    · rw [segmentEnd_of_spinl_last rfl hn, segmentEnd_of_spinl_last rfl hn]; rfl
    · rw [segmentEnd_of_spinl_next rfl hn, segmentEnd_of_spinl_next rfl hn]; rfl
  all_goals rfl

/-- The host's queue is none of the sequencer's business (R100). -/
theorem segmentEnd_host (s : State) (q : List HostItem) :
    segmentEnd { s with host := q } = { segmentEnd s with host := q } ∧ (segmentEnd s).host = s.host := by
  obtain ⟨_, _, _, _, _, _, _, _, _, _, _, _, _, _, phase, _, _, _, nbits⟩ := s
  cases phase
  case calculate =>
    show finishCal _ = { finishCal _ with host := q } ∧ (finishCal _).host = _
    unfold finishCal
    simp only [State.calibration]
    split <;> exact ⟨rfl, rfl⟩
  case spinl =>
    by_cases hn : nbits = 0#3
    · rw [segmentEnd_of_spinl_last rfl hn, segmentEnd_of_spinl_last rfl hn]; exact ⟨rfl, rfl⟩
    · rw [segmentEnd_of_spinl_next rfl hn, segmentEnd_of_spinl_next rfl hn]; exact ⟨rfl, rfl⟩
  all_goals exact ⟨rfl, rfl⟩

/-- The end of a segment leaves the inputs as they are. -/
theorem segmentEnd_inputs (s : State) :
    (segmentEnd s).rstPlan = s.rstPlan ∧ (segmentEnd s).stallPlan = s.stallPlan ∧ (segmentEnd s).tick = s.tick := by
  have h := segmentEnd_cases s
  generalize segmentEnd s = t at h
  cases h <;> simp

theorem segmentEnd_rstAt (s : State) (k : Nat) : (segmentEnd s).rstAt k = s.rstAt k :=
  State.rstAt_congr (segmentEnd_inputs s).1 (segmentEnd_inputs s).2.2 k

theorem segmentEnd_stallAt (s : State) (k : Nat) : (segmentEnd s).stallAt k = s.stallAt k :=
  State.stallAt_congr (segmentEnd_inputs s).2.1 (segmentEnd_inputs s).2.2 k

theorem busyCycle_host (s : State) (q : List HostItem) :
    busyCycle { s with host := q } = { busyCycle s with host := q } ∧ (busyCycle s).host = s.host := by
  unfold busyCycle
  by_cases h : 1#40 < s.rem
  · rw [if_pos h, if_pos (show 1#40 < State.rem { s with host := q } from h)]; exact ⟨rfl, rfl⟩
  · rw [if_neg h, if_neg (show ¬1#40 < State.rem { s with host := q } from h)]; exact segmentEnd_host s q

/-- A cycle in the middle of a segment. -/
theorem step_of_counting {s : State} (hp : s.phase ≠ .idle) (hr : s.rstAt 0 = false) (hs : s.stallAt 0 = false)
    (h : 1 < s.rem.toNat) : step s = .next { s.spend with rem := s.rem - 1#40 } := by
  rw [step_of_busy hr hp hs, busyCycle, if_pos (by rw [BitVec.lt_def]; simpa using h)]; rfl

/-- The last cycle of a segment. -/
theorem step_of_last {s : State} (hp : s.phase ≠ .idle) (hr : s.rstAt 0 = false) (hs : s.stallAt 0 = false)
    (h : s.rem.toNat ≤ 1) : step s = .next (segmentEnd s.spend) := by
  rw [step_of_busy hr hp hs, busyCycle, if_neg (by rw [BitVec.lt_def]; simpa using h)]

theorem runFor_one (s : State) : runFor 1 s = step s := by
  rw [runFor]; cases step s <;> rfl

/-- The cycle after `n` cycles of a run. -/
theorem runFor_succ_end {n : Nat} {s t : State} (h : runFor n s = .next t) : runFor (n + 1) s = step t := by
  rw [runFor_add h, runFor_one]

theorem traceFor_succ_end {n : Nat} {s t : State} (h : runFor n s = .next t) :
    traceFor (n + 1) s = traceFor n s ++ [t.level] := by
  rw [traceFor_add h]; congr 1; rw [traceFor]; cases step t <;> rfl

/-- Inside a segment nothing changes but REM, without stalls (R153). -/
theorem runFor_inside {s : State} (n : Nat) (hp : s.phase ≠ .idle) (h : n + 1 < s.rem.toNat)
    (hr : s.NoReset (n + 1)) (hs : s.NoStall 0 (n + 1)) :
    runFor (n + 1) s = .next { s.afterCycles (n + 1) with rem := s.rem - BitVec.ofNat 40 (n + 1) } ∧
      traceFor (n + 1) s = List.replicate (n + 1) (levelOf s.pinOe s.pin) := by
  induction n with
  | zero =>
    have h0 := step_of_counting hp (hr 0 (by omega)) (hs 0 (by omega) (by omega)) (by omega)
    refine ⟨by rw [runFor_one, h0, State.afterCycles_one], ?_⟩
    rw [traceFor_succ_of h0, State.level_eq (hr 0 (by omega))]; rfl
  | succ n ih =>
    obtain ⟨a, b⟩ := ih (by omega) (fun k hk => hr k (by omega)) (fun k _ hk => hs k (by omega) (by omega))
    generalize ht : ({ s.afterCycles (n + 1) with rem := s.rem - BitVec.ofNat 40 (n + 1) } : State) = t at a
    have hp' : t.phase = s.phase := by rw [← ht]; rfl
    have hr' : t.rstAt 0 = false := by
      rw [← ht]; exact (State.afterCycles_rstAt s (n + 1) 0).trans (hr _ (by omega))
    have hs' : t.stallAt 0 = false := by
      rw [← ht]; exact (State.afterCycles_stallAt s (n + 1) 0).trans (hs _ (by omega) (by omega))
    have hrem : t.rem = s.rem - BitVec.ofNat 40 (n + 1) := by rw [← ht]
    rw [runFor_succ_end a, traceFor_succ_end a, step_of_counting (hp' ▸ hp) hr' hs' (by rw [hrem]; bv_omega),
      State.level_eq hr', b, List.replicate_succ' (n := n + 1), hrem]
    refine ⟨?_, by rw [← ht]; rfl⟩
    have e : s.rem - BitVec.ofNat 40 (n + 1) - 1#40 = s.rem - BitVec.ofNat 40 (n + 1 + 1) := by bv_omega
    rw [e, ← State.afterCycles_afterCycles s (n + 1) 1, State.afterCycles_one, ← ht]; rfl

/-- A whole segment without stalls: its level for all its cycles, then its end (R153, R154). -/
theorem runFor_segment {s : State} (n : Nat) (hp : s.phase ≠ .idle) (h : s.rem.toNat = n) (hn : 0 < n)
    (hr : s.NoReset n) (hs : s.NoStall 0 n) :
    runFor n s = .next (segmentEnd (s.afterCycles n)) ∧
      traceFor n s = List.replicate n (levelOf s.pinOe s.pin) := by
  obtain ⟨n, rfl⟩ : ∃ m, n = m + 1 := ⟨n - 1, by omega⟩
  rcases Nat.eq_zero_or_pos n with rfl | hpos
  · have h0 := step_of_last hp (hr 0 (by omega)) (hs 0 (by omega) (by omega)) (by omega)
    refine ⟨by rw [runFor_one, h0, State.afterCycles_one], ?_⟩
    rw [traceFor_succ_of h0, State.level_eq (hr 0 (by omega))]; rfl
  · obtain ⟨m, rfl⟩ : ∃ m, n = m + 1 := ⟨n - 1, by omega⟩
    obtain ⟨a, b⟩ := runFor_inside m hp (by omega) (fun k hk => hr k (by omega))
      (fun k _ hk => hs k (by omega) (by omega))
    generalize ht : ({ s.afterCycles (m + 1) with rem := s.rem - BitVec.ofNat 40 (m + 1) } : State) = t at a
    have hp' : t.phase ≠ .idle := by rw [← ht]; exact hp
    have hr' : t.rstAt 0 = false := by
      rw [← ht]; exact (State.afterCycles_rstAt s (m + 1) 0).trans (hr _ (by omega))
    have hs' : t.stallAt 0 = false := by
      rw [← ht]; exact (State.afterCycles_stallAt s (m + 1) 0).trans (hs _ (by omega) (by omega))
    have hrem : t.rem.toNat ≤ 1 := by rw [← ht]; show (s.rem - BitVec.ofNat 40 (m + 1)).toNat ≤ 1; bv_omega
    rw [runFor_succ_end a, traceFor_succ_end a, step_of_last hp' hr' hs' hrem, State.level_eq hr', b,
      List.replicate_succ' (n := m + 1)]
    refine ⟨?_, by rw [← ht]; rfl⟩
    rw [← State.afterCycles_afterCycles s (m + 1) 1, State.afterCycles_one, ← ht]
    exact congrArg _ (segmentEnd_congr (s := (s.afterCycles (m + 1)).spend) hp _ _)

/-- A segment that starts after `m` cycles of a run, with the inputs of those cycles used up. -/
theorem runFor_segment_after {s t : State} {m : Nat} (n : Nat) (hrun : runFor m s = .next t) (hp : t.phase ≠ .idle)
    (h : t.rem.toNat = n) (hn : 0 < n) (hm : 0 < m) (hri : ∀ k, t.rstAt k = s.rstAt (m + k))
    (hsi : ∀ k, t.stallAt k = s.stallAt (m + k)) (hr : s.NoReset (m + n)) (hs : s.NoStall 1 (m + n)) :
    runFor (m + n) s = .next (segmentEnd (t.afterCycles n)) ∧
      traceFor (m + n) s = traceFor m s ++ List.replicate n (levelOf t.pinOe t.pin) := by
  obtain ⟨a, b⟩ := runFor_segment n hp h hn (hr.of_inputs hri) (hs.of_inputs hm hsi)
  exact ⟨(runFor_add hrun n).trans a, by rw [traceFor_add hrun, b]⟩

end Sys2Proof.Machine
end

