-- ==== Sys2Proof/Laws/Observe.lean ====
section
/-! SUPPORT. Laws/Observe.lean: what an observer's functions say of a state: its outputs, the request and the line, the
operation the port accepts, and the end of a run. -/

namespace Sys2Proof.Machine

/-! ### Outputs, request, line -/

theorem State.visible_eq {s : State} (h : s.rstAt 0 = false) : s.visible = s := by simp [State.visible, h]

theorem State.visible_of_reset {s : State} (h : s.rstAt 0 = true) : s.visible = s.inReset := by simp [State.visible, h]

@[simp] theorem State.outputs_reqReady (s : State) : s.outputs.reqReady = s.reqReady := rfl
@[simp] theorem State.outputs_respValid (s : State) : s.outputs.respValid = s.visible.resp.isSome := rfl
@[simp] theorem State.outputs_pin (s : State) : s.outputs.pin = s.visible.pin := rfl
@[simp] theorem State.outputs_pinOe (s : State) : s.outputs.pinOe = s.visible.pinOe := rfl
@[simp] theorem State.outputs_np (s : State) : s.outputs.np = s.visible.phase.np := rfl

/-- With `resp_valid` the other two response signals are those of the response (R53). -/
theorem State.outputs_of_resp {s : State} {x : Response} (h : s.visible.resp = some x) :
    s.outputs.respErr = x.err ∧ s.outputs.respRdata = x.rdata := by simp [State.outputs, h]

/-- A request is there exactly where the host has a record next and PHASE is IDLE or the host is early (R100, R106). -/
theorem State.request_valid_iff (s : State) (early : Bool) :
    (s.request early).valid = true ↔
      (∃ r rest, s.host = .txn r :: rest) ∧ (s.visible.phase = .idle ∨ early = true) := by
  unfold State.request
  split
  · split <;> simp_all [State.present, State.noRequest]
  · simp_all [State.noRequest]
  · simp_all [State.noRequest]

/-- The line of a driven cycle nobody else drives in (R51). -/
theorem State.line_of_driven {s : State} (hr : s.rstAt 0 = false) (ho : s.pinOe = true) : s.line false = s.pin := by
  simp only [State.line, State.level_eq hr, ho, levelOf]
  cases s.pin <;> rfl

/-! ### The operation accepted -/

/-- The port accepts `i` exactly in an IDLE cycle with `rst = 0` in which the host presents a record of it (R100). -/
theorem State.accepted_eq_some_iff (s : State) (i : Instr) :
    s.accepted = some i ↔
      s.rstAt 0 = false ∧ s.phase = .idle ∧ ∃ r rest, s.host = .txn r :: rest ∧ decode r = .ok i := by
  cases hr : s.rstAt 0
  · by_cases hp : s.phase = .idle
    · rcases hh : s.host with _ | ⟨_ | r, rest⟩
      · simp [State.accepted, State.activity, hr, hp, hh]
      · simp [State.accepted, State.activity, hr, hp, hh]
      · cases hd : decode r <;> simp [State.accepted, State.activity, hr, hp, hh, hd, Except.toOption]
    · cases hs : s.stallAt 0 <;> simp [State.accepted, State.activity, hr, hp, hs]
  · simp [State.accepted, State.activity, hr]

/-! ### The end of a run (R240) -/

theorem State.ended_iff (s : State) :
    s.ended = true ↔ (∀ r, .txn r ∉ s.host) ∧ s.phase = .idle ∧ s.resp.isSome = true := by
  have key : (∀ x ∈ s.host, x = HostItem.idle) ↔ ∀ r, HostItem.txn r ∉ s.host :=
    ⟨fun h r hr => HostItem.noConfusion (h _ hr), fun h x hx => by cases x with | idle => rfl | txn r => exact (h r hx).elim⟩
  simp only [State.ended, Bool.and_eq_true, List.all_eq_true, decide_eq_true_eq, key, and_assoc]

end Sys2Proof.Machine
end

