-- ==== Sys2Proof/Laws/PerInstr.lean ====
section
/-! SUPPORT. Laws/PerInstr.lean: what holds of every operation as syntax, one lemma per constructor: the shape of its record
(R81, R84). -/

namespace Sys2Proof.Laws.RecordShape

/-- Bits 47:41 of an operation's record are 0, its bit 40 says whether it writes, and a command is a write to offset 0. -/
def Statement (i : Instr) : Prop :=
  Record.zeroField (encode i) = 0#7 ∧
    match i with
    | .rd off => Record.isWrite (encode i) = false ∧ Record.off (encode i) = off ∧ Record.data (encode i) = 0#32
    | .wr off data => Record.isWrite (encode i) = true ∧ Record.off (encode i) = off ∧ Record.data (encode i) = data
    | .cal => Record.isWrite (encode i) = true ∧ Record.off (encode i) = 0#8
    | .init => Record.isWrite (encode i) = true ∧ Record.off (encode i) = 0#8
    | .conv => Record.isWrite (encode i) = true ∧ Record.off (encode i) = 0#8
    | .bit _ => Record.isWrite (encode i) = true ∧ Record.off (encode i) = 0#8
    | .byte _ => Record.isWrite (encode i) = true ∧ Record.off (encode i) = 0#8
    | .latch => Record.isWrite (encode i) = true ∧ Record.off (encode i) = 0#8

/-- The fields of a `WR` record. -/
theorem writeRecord_fields (off : Offset) (data : Word) :
    Record.zeroField (writeRecord off data) = 0#7 ∧ Record.isWrite (writeRecord off data) = true ∧
      Record.off (writeRecord off data) = off ∧ Record.data (writeRecord off data) = data := by
  have ho := off.isLt
  have hd := data.isLt
  refine ⟨BitVec.eq_of_toNat_eq ?_, ?_, BitVec.eq_of_toNat_eq ?_, BitVec.eq_of_toNat_eq ?_⟩
  · rw [Record.zeroField_toNat, writeRecord_toNat]; simp; omega
  · rw [Record.isWrite_eq, writeRecord_toNat, decide_eq_true_eq]; omega
  · rw [Record.off_toNat, writeRecord_toNat]; omega
  · rw [Record.data_toNat, writeRecord_toNat]; omega

/-- The fields of a `RD` record. -/
theorem readRecord_fields (off : Offset) :
    Record.zeroField (readRecord off) = 0#7 ∧ Record.isWrite (readRecord off) = false ∧
      Record.off (readRecord off) = off ∧ Record.data (readRecord off) = 0#32 := by
  have ho := off.isLt
  refine ⟨BitVec.eq_of_toNat_eq ?_, ?_, BitVec.eq_of_toNat_eq ?_, BitVec.eq_of_toNat_eq ?_⟩
  · rw [Record.zeroField_toNat, readRecord_toNat]; simp; omega
  · rw [Record.isWrite_eq, readRecord_toNat, decide_eq_false_iff_not]; omega
  · rw [Record.off_toNat, readRecord_toNat]; omega
  · rw [Record.data_toNat, readRecord_toNat]; simp

/-- A command's record is a write to offset 0. -/
theorem commandRecord_fields (op imm8 : BitVec 8) :
    Record.zeroField (commandRecord op imm8) = 0#7 ∧ Record.isWrite (commandRecord op imm8) = true ∧
      Record.off (commandRecord op imm8) = 0#8 :=
  have h := writeRecord_fields 0#8 (commandWord op imm8)
  ⟨h.1, h.2.1, h.2.2.1⟩

theorem rd (off : Offset) : Statement (.rd off) := readRecord_fields off
theorem wr (off : Offset) (data : Word) : Statement (.wr off data) := writeRecord_fields off data
theorem cal : Statement .cal := commandRecord_fields _ _
theorem init : Statement .init := commandRecord_fields _ _
theorem conv : Statement .conv := commandRecord_fields _ _
theorem bit (b : Bool) : Statement (.bit b) := commandRecord_fields _ _
theorem byte (v : Byte) : Statement (.byte v) := commandRecord_fields _ _
theorem latch : Statement .latch := commandRecord_fields _ _

end Sys2Proof.Laws.RecordShape
end

