-- ==== Sys2Proof/Tests/Slice0.lean ====
section
/-! SUPPORT. Tests/Slice0.lean: tests of the model against values the spec states (cited at each), and for every obligation
with hypotheses a state and operands that meet them. -/

namespace Sys2Proof.Tests

open Sys2Proof.Machine

/-! ### States -/

/-- The reset state with parameters `p`, no reset and no stall for `n` cycles, and a host that presents `q`. -/
def quiet (n : Nat) (p : Params) (q : List HostItem) : State :=
  { State.reset with params := p, rstPlan := List.replicate n false, stallPlan := List.replicate n false, host := q }

/-- The reset state with the conventions of spec/95 part 0 and one record to accept. -/
def fresh (r : Record) : State := quiet 1 Params.reference [.txn r]

/-- Parameters that give the counts 1, 1, 2, 1 and latch count 1 at one hertz, so that pulses are short. -/
def tiny : Params :=
  { Params.reference with
    t0hNs := 1000000000#32, t0lNs := 1000000000#32, t1hNs := 2000000000#32, t1lNs := 1000000000#32, resUs := 1#32
    fTrueNum := 1 }

/-- A calibrated state at one hertz. -/
def calibrated (n : Nat) (q : List HostItem) : State :=
  { quiet n tiny q with
    clkhz := 1#32, lc := .cald, tfNum := 1#32, tfDen := 1000000000#32, cntT0h := 1#32, cntT0l := 1#32, cntT1h := 2#32
    cntT1l := 1#32, cntRes := 1#32 }

/-- The same after `INIT`. -/
def ready (n : Nat) (q : List HostItem) : State := { calibrated n q with lc := .ready, pinOe := true }

/-- READY at 64 MHz with the counts of rule R126's example. -/
def ready64 (q : List HostItem) : State :=
  { quiet 2 Params.reference q with
    clkhz := 64000000#32, lc := .ready, pinOe := true, tfNum := 8#32, tfDen := 125#32, cntT0h := 22#32, cntT0l := 51#32
    cntT1h := 44#32, cntT1l := 38#32, cntRes := 3200#32 }

/-- FAULT after a `CAL` with a zero clock. -/
def faulted (n : Nat) (q : List HostItem) : State := { quiet n tiny q with lc := .fault, fcode := 0x01#8 }

/-- In the high pulse of a 1 bit, `r` cycles before its end. -/
def pulsing (n : Nat) (r : Cycles) (q : List HostItem) : State :=
  { ready n q with phase := .spinh, pin := true, rem := r, curbit := true }

/-- The state of an answer. -/
def stateOf (s : State) : Answer → State
  | .next t => t
  | .fault _ => s
  | .refused _ => s

/-! ### WellFormed: the one check refuses an ill-formed term (R84) -/

theorem test_wellFormed_refuses_generic_wr_of_a_command : (Instr.wr 0x00#8 0x01000000#32).wellFormed = false := by decide
theorem test_wellFormed_refuses_generic_wr_of_a_byte : (Instr.wr 0x00#8 0x110000FF#32).wellFormed = false := by decide
theorem test_wellFormed_accepts_illegal_word : (Instr.wr 0x00#8 0x10000002#32).wellFormed = true := by decide

/-! ### Decoding, from the records and words of R84 and spec/95 parts 2.1 and 3 -/

theorem test_decode_rd : decodeTableWord 48 0x005000000000 = some (.rd 0x50#8) := by decide
theorem test_decode_wr : decodeTableWord 48 0x010C03D09000 = some (.wr 0x0C#8 64000000#32) := by decide
theorem test_decode_cal : decodeTableWord 32 0x01000000 = some .cal := by decide
theorem test_decode_init : decodeTableWord 32 0x02000000 = some .init := by decide
theorem test_decode_conv : decodeTableWord 32 0x03000000 = some .conv := by decide
theorem test_decode_bit : decodeTableWord 32 0x10000001 = some (.bit true) := by decide
theorem test_decode_byte : decodeTableWord 48 0x0100110000A5 = some (.byte 0xA5#8) := by decide
theorem test_decode_latch : decodeTableWord 48 0x010012000000 = some .latch := by decide
theorem test_decode_refuses_zero_field : decodeTableWord 48 0x800400000000 = none := by decide
theorem test_decode_illegal_word : decodeTableWord 32 0xFFFFFFFF = some (.wr 0x00#8 0xFFFFFFFF#32) := by decide

/-! ### One step per operation, with expected results from spec/95 -/

/-- Part 2.1 row 1: `rd ID`. -/
theorem test_rd_id :
    (stateOf State.reset (step (fresh 0x005000000000#48))).resp = some ⟨false, 0x42505401#32⟩ := by decide

/-- Part 2.1 row 4: `rd 0x01` is misaligned. -/
theorem test_rd_misaligned :
    let t := stateOf State.reset (step (fresh 0x000100000000#48))
    t.resp = some ⟨true, 0#32⟩ ∧ t.errWord = 0x00001000#32 := by decide

/-- Part 2.1 row 29: `wr CLKHZ, 0xFFFFFFFF`. -/
theorem test_wr_clkhz :
    let t := stateOf State.reset (step (fresh 0x010CFFFFFFFF#48))
    t.resp = some ⟨false, 0#32⟩ ∧ t.clkhz = 0xFFFFFFFF#32 := by decide

/-- Part 2.1 row 25: `wr T0H_NS, 400` is read-only. -/
theorem test_wr_read_only :
    let t := stateOf State.reset (step (fresh 0x011800000190#48))
    t.resp = some ⟨true, 0#32⟩ ∧ t.lcode = 0x11#8 ∧ t.readReg .t0hNs = 0x15E#32 := by decide

/-- Part 2.2: 64 MHz at fudge 1/3 calibrates to 8/125 and 7, 17, 14, 12 with 1067. -/
theorem test_cal_results :
    let t := stateOf State.reset (step { quiet 1 Params.reference [] with
      clkhz := 64000000#32, fudgeDen := 3#32, phase := .calculate, rem := 1#40 })
    (t.tfNum, t.tfDen, t.cntT0h, t.cntT0l, t.cntT1h, t.cntT1l, t.cntRes) =
      (8#32, 125#32, 7#32, 17#32, 14#32, 12#32, 1067#32) ∧ t.statusWord = 1#32 := by decide +kernel

/-- Part 2.2: 2 857 142 Hz gives a zero count. -/
theorem test_cal_count_zero :
    let t := stateOf State.reset (step { quiet 1 Params.reference [] with
      clkhz := 2857142#32, phase := .calculate, rem := 1#40 })
    t.errWord = 0x03#32 ∧ t.statusWord = 3#32 ∧ t.cntT0l = 0#32 := by decide +kernel

/-- Program P1: the end of `init` leaves STATUS `0x00000022`. -/
theorem test_init_end :
    (stateOf State.reset (step { calibrated 1 [] with phase := .seti, rem := 1#40 })).statusWord = 0x22#32 := by decide

/-- Program P7: `init` in UNCAL is refused. -/
theorem test_init_refused :
    (stateOf State.reset (step (fresh 0x010002000000#48))).errWord = 0x00001400#32 := by decide

/-- Part 2.3: at 64 MHz 124 ns convert to 7 (7.936 floored). -/
theorem test_conv_floor :
    (stateOf State.reset (step { ready64 [.txn 0x010003000000#48] with convNs := 124#32 })).convIters = 7#32 := by decide

/-- Program P1: `bit 1` starts a SETH of one cycle, and its SPINH lasts 44. -/
theorem test_bit_starts :
    let t := stateOf State.reset (step (ready64 [.txn 0x010010000001#48]))
    (t.phase, t.rem, t.curbit) = (.seth, 1#40, true) ∧
      ((stateOf State.reset (step t)).rem, (stateOf State.reset (step t)).pin) = (44#40, true) := by decide

/-- Program P3: `byte 0xA5` starts with bit 7, a 1, with seven bits to follow. -/
theorem test_byte_starts :
    let t := stateOf State.reset (step (ready64 [.txn 0x0100110000A5#48]))
    (t.curbit, t.shift, t.nbits) = (true, 0xA5#8, 7#3) := by decide

/-- R154: at the end of a SPINL the old bit 6 is next. -/
theorem test_byte_next_bit :
    let t := stateOf State.reset (step { ready64 [] with
      phase := .spinl, rem := 1#40, curbit := true, shift := 0xA5#8, nbits := 7#3 })
    (t.phase, t.curbit, t.shift, t.nbits) = (.seth, false, 0x4A#8, 6#3) := by decide

/-- Program P1: `latch` lasts 3200 cycles after its acceptance. -/
theorem test_latch_starts :
    let t := stateOf State.reset (step (ready64 [.txn 0x010012000000#48]))
    (t.phase, t.rem, t.pin) = (.spinr, 3200#40, false) := by decide

/-- Part 2.8: `rst` in a high pulse stops driving the line at once, and leaves the reset state. -/
theorem test_reset_in_a_pulse :
    let s := { pulsing 1 9#40 [] with rstPlan := [true] }
    s.level = .undriven ∧ (stateOf s (step s)).statusWord = 0#32 ∧ (stateOf s (step s)).lc = .uncal := by decide

/-- Part 2.7: a stalled cycle changes nothing. -/
theorem test_stall_holds :
    let s := { pulsing 1 9#40 [] with stallPlan := [true] }
    (stateOf s (step s)).rem = 9#40 ∧ (stateOf s (step s)).pin = true := by decide

/-- R232, X4: the colour (R=10, G=20, B=30) is sent as 20, 10, 30. -/
theorem test_led_order : led 10#8 20#8 30#8 = [.byte 20#8, .byte 10#8, .byte 30#8] := by decide

/-- Program P4: the decoder of R166 reads high runs of 23 and 44 at its parameters. -/
theorem test_run_lengths :
    runLengths [.undriven, .low, .low, .high, .low] = [(.undriven, 1), (.low, 2), (.high, 1), (.low, 1)] ∧
      highRuns [.undriven, .low, .high, .high, .low, .high] = [2, 1] := by decide

/-- The host's query: the very next step after placing a table word runs it. -/
theorem test_withFetchWord :
    step (State.reset.withFetchWord 32 0x01000000) =
      exec .cal { (State.reset.withFetchWord 32 0x01000000).spend with host := [] } := by
  rw [step_of_accept (r := tableRecord 32 0x01000000) (rest := []) (i := .cal) rfl rfl rfl (by decide)]; rfl

/-! ### The states used below satisfy the invariant -/

theorem tiny_inRange : tiny.InRange := by constructor <;> decide
theorem reference_inRange : Params.reference.InRange := by constructor <;> decide

theorem tiny_calibrates : calibrate tiny 1 1 1 = .ok ⟨1, 1000000000, 1, 1, 2, 1, 1⟩ := by decide +kernel

theorem quiet_noReset {p : Params} {q : List HostItem} (n : Nat) : (quiet n p q).NoReset n := by
  intro k hk; simp [quiet, State.rstAt, hk]

theorem quiet_noStall {p : Params} {q : List HostItem} (a n : Nat) : (quiet n p q).NoStall a n := by
  intro k _ hk; simp [quiet, State.stallAt, hk]

theorem quiet_stallCount {p : Params} {q : List HostItem} (n : Nat) : (quiet n p q).stallCount n = 0 := by
  rw [State.stallCount, List.countP_eq_zero]
  intro k hk
  simp [quiet, State.stallAt, List.mem_range.1 hk]

theorem quiet_inv {p : Params} (hp : p.InRange) (n : Nat) (q : List HostItem) : (quiet n p q).Inv where
  params := hp
  idle_iff := by simp [quiet, State.reset]
  driven_iff := by simp [quiet, State.reset]
  high_iff := by simp [quiet, State.reset]
  calibrated := by simp [quiet, State.reset]
  uncalibrated := fun _ => ⟨rfl, rfl, rfl, rfl, rfl, rfl, rfl⟩
  fault_iff := by simp [quiet, State.reset]
  pulse_lc := by simp [quiet, State.reset]
  seti_lc := by simp [quiet, State.reset]
  calc_lc := by simp [quiet, State.reset]
  rem_le := Nat.zero_le _
  shift_cur := by simp [quiet, State.reset]
  fcode_mem := .inl rfl
  lcode_mem := .inl rfl

theorem faulted_inv (n : Nat) (q : List HostItem) : (faulted n q).Inv where
  params := tiny_inRange
  idle_iff := by simp [faulted, quiet, State.reset]
  driven_iff := by simp [faulted, quiet, State.reset]
  high_iff := by simp [faulted, quiet, State.reset]
  calibrated := by simp [faulted]
  uncalibrated := fun _ => ⟨rfl, rfl, rfl, rfl, rfl, rfl, rfl⟩
  fault_iff := by simp [faulted]
  pulse_lc := by simp [faulted, quiet, State.reset]
  seti_lc := by simp [faulted, quiet, State.reset]
  calc_lc := by simp [faulted, quiet, State.reset]
  rem_le := Nat.zero_le _
  shift_cur := by simp [faulted, quiet, State.reset]
  fcode_mem := .inr ⟨.clkZero, rfl⟩
  lcode_mem := .inl rfl

theorem calibrated_inv (n : Nat) (q : List HostItem) : (calibrated n q).Inv where
  params := tiny_inRange
  idle_iff := by simp [calibrated, quiet, State.reset]
  driven_iff := by simp [calibrated, quiet, State.reset]
  high_iff := by simp [calibrated, quiet, State.reset]
  calibrated := fun _ => ⟨_, tiny_calibrates, rfl⟩
  uncalibrated := by simp [calibrated]
  fault_iff := by simp [calibrated, quiet, State.reset]
  pulse_lc := by simp [calibrated, quiet, State.reset]
  seti_lc := fun _ => rfl
  calc_lc := by simp [calibrated, quiet, State.reset]
  rem_le := Nat.zero_le _
  shift_cur := by simp [calibrated, quiet, State.reset]
  fcode_mem := .inl rfl
  lcode_mem := .inl rfl

theorem ready_inv (n : Nat) (q : List HostItem) : (ready n q).Inv where
  params := tiny_inRange
  idle_iff := by simp [ready, calibrated, quiet, State.reset]
  driven_iff := by simp [ready]
  high_iff := by simp [ready, calibrated, quiet, State.reset]
  calibrated := fun _ => ⟨_, tiny_calibrates, rfl⟩
  uncalibrated := by simp [ready]
  fault_iff := by simp [ready, calibrated, quiet, State.reset]
  pulse_lc := fun _ => rfl
  seti_lc := by simp [ready, calibrated, quiet, State.reset]
  calc_lc := by simp [ready, calibrated, quiet, State.reset]
  rem_le := Nat.zero_le _
  shift_cur := by simp [ready, calibrated, quiet, State.reset]
  fcode_mem := .inl rfl
  lcode_mem := .inl rfl

theorem pulsing_inv (n : Nat) (q : List HostItem) : (pulsing n 2#40 q).Inv where
  params := tiny_inRange
  idle_iff := by simp [pulsing]
  driven_iff := by simp [pulsing, ready]
  high_iff := by simp [pulsing]
  calibrated := fun _ => ⟨_, tiny_calibrates, rfl⟩
  uncalibrated := by simp [pulsing, ready]
  fault_iff := by simp [pulsing, ready, calibrated, quiet, State.reset]
  pulse_lc := fun _ => rfl
  seti_lc := by simp [pulsing]
  calc_lc := by simp [pulsing]
  rem_le := by show (2#40).toNat ≤ _; decide
  shift_cur := by simp [pulsing, ready, calibrated, quiet, State.reset]
  fcode_mem := .inl rfl
  lcode_mem := .inl rfl

/-! ### Witnesses: for every obligation with hypotheses, a state and operands that meet them, clause by clause -/

/-- The answer is a next state. -/
def goesOn : Answer → Bool
  | .next _ => true
  | .fault _ => false
  | .refused _ => false

theorem next_of_goesOn {a : Answer} (s : State) (h : goesOn a = true) : a = .next (stateOf s a) := by
  cases a with
  | next t => rfl
  | fault f => cases h
  | refused r => cases h

theorem witness_ResetStateIsTheResetTable :
    ({ pulsing 1 9#40 [] with rstPlan := [true] }).rstAt 0 = true ∧ (pulsing 1 9#40 []).rstAt 0 = false := by decide

theorem witness_ResetWinsInEveryState : ({ pulsing 1 9#40 [] with rstPlan := [true] }).rstAt 0 = true := by decide

theorem witness_DecodeOfEncode :
    Instr.wellFormed (.bit true) = true ∧ Instr.wellFormed (.wr 0x00#8 0x10000002#32) = true ∧
      Instr.wellFormed (.rd 0xFF#8) = true := by decide

theorem witness_EncodeOfDecode :
    decode 0x010010000001#48 = .ok (.bit true) ∧ decode 0x01FFFFFFFFFF#48 = .ok (.wr 0xFF#8 0xFFFFFFFF#32) := by decide

theorem witness_RecordFormat_zero : (0x020000000000#48).toNat / 2 ^ 41 ≠ 0 ∧ (0x800000000000#48).toNat / 2 ^ 41 ≠ 0 := by
  decide

theorem witness_RecordFormat_rd_data : (0x00FF00000001#48).toNat / 2 ^ 40 = 0 ∧ (0x00FF00000001#48).toNat % 2 ^ 32 ≠ 0 := by
  decide

theorem witness_RecordFormat_rd : (0x00FF00000000#48).toNat / 2 ^ 40 = 0 ∧ (0x00FF00000000#48).toNat % 2 ^ 32 = 0 := by
  decide

theorem witness_RecordFormat_wr : (0x0101FFFFFFFF#48).toNat / 2 ^ 40 = 1 ∧ (0x0101FFFFFFFF#48).toNat / 2 ^ 32 % 256 ≠ 0 := by
  decide

theorem witness_RecordFormat_command :
    (0x010012000000#48).toNat / 2 ^ 40 = 1 ∧ (0x010012000000#48).toNat / 2 ^ 32 % 256 = 0 := by decide

theorem witness_RecordFormat_malformed :
    (fresh 0x020000000000#48).phase = .idle ∧ (fresh 0x020000000000#48).rstAt 0 = false ∧
      (fresh 0x020000000000#48).host = [.txn 0x020000000000#48] ∧ decode 0x020000000000#48 = .error .zeroFieldSet := by decide

theorem witness_IllegalCommandWords :
    (0x04000000#32).toNat / 2 ^ 24 ∉ [0x01, 0x02, 0x03, 0x10, 0x11, 0x12] ∧ (0x11000100#32).toNat / 2 ^ 8 % 2 ^ 16 ≠ 0 ∧
      ((0x12000001#32).toNat / 2 ^ 24 ∈ [0x01, 0x02, 0x03, 0x12] ∧ (0x12000001#32).toNat % 2 ^ 8 ≠ 0) ∧
      ((0x10000002#32).toNat / 2 ^ 24 = 0x10 ∧ 2 ≤ (0x10000002#32).toNat % 2 ^ 8) := by decide

theorem witness_StepRunsTheDecodedOperation :
    (fresh 0x010001000000#48).phase = .idle ∧ (fresh 0x010001000000#48).rstAt 0 = false ∧
      (fresh 0x010001000000#48).host = [.txn 0x010001000000#48] ∧ decode 0x010001000000#48 = .ok .cal := by decide

theorem witness_StepFollowsTheCycleRule_idle :
    (quiet 1 tiny [.idle]).rstAt 0 = false ∧ (quiet 1 tiny [.idle]).phase = .idle ∧
      (quiet 1 tiny [.idle]).host = [.idle] ∧ (quiet 1 tiny []).host = [] := by decide

theorem witness_StepFollowsTheCycleRule_busy :
    (pulsing 1 2#40 []).phase ≠ .idle ∧ (pulsing 1 2#40 []).rstAt 0 = false ∧ (pulsing 1 2#40 []).stallAt 0 = false ∧
      1 < (pulsing 1 2#40 []).rem.toNat ∧ (pulsing 1 1#40 []).rem = 1#40 ∧
      ({ pulsing 1 2#40 [] with stallPlan := [true] }).stallAt 0 = true := by decide

theorem witness_SegmentEndActions :
    (pulsing 1 1#40 []).rem = 1#40 ∧ (pulsing 1 1#40 []).rstAt 0 = false ∧ (pulsing 1 1#40 []).stallAt 0 = false ∧
      (pulsing 1 1#40 []).phase = .spinh ∧
      ({ ready 1 [] with phase := .spinl, rem := 1#40, nbits := 7#3 }).nbits ≠ 0#3 ∧
      ({ calibrated 1 [] with phase := .seti, rem := 1#40 }).phase = .seti := by decide

/-- Its CALC clauses: a configuration that calibrates and one that does not. -/
theorem witness_SegmentEndActions_calc :
    let s := { quiet 1 tiny [] with phase := .calculate, rem := 1#40 }
    s.rem = 1#40 ∧ s.rstAt 0 = false ∧ s.stallAt 0 = false ∧
      calibrate s.params s.clkhz.toNat s.fudgeNum.toNat s.fudgeDen.toNat = .error .clkZero ∧
      calibrate s.params 1 1 1 = .ok ⟨1, 1000000000, 1, 1, 2, 1, 1⟩ :=
  ⟨by decide, by decide, by decide, by decide, tiny_calibrates⟩

theorem witness_BusyPortAcceptsNothing : (pulsing 1 2#40 [.txn 0x000400000000#48]).phase ≠ .idle := by decide

theorem witness_BadOffsets :
    (0x01#8).toNat % 4 ≠ 0 ∧ (0x51#8).toNat % 4 ≠ 0 ∧ 0x50 < (0x54#8).toNat ∧ 0x54 ≤ (0x54#8).toNat ∧
      0x54 ≤ (0xFC#8).toNat := by decide

theorem witness_WriteStoresOrIsRefused :
    (quiet 1 tiny []).lc = .uncal ∧ (faulted 1 []).lc ≠ .uncal ∧ (0x14#8).toNat ∈ [0x0C, 0x10, 0x14] ∧
      ((0x50#8).toNat % 4 = 0 ∧ (0x50#8).toNat ≤ 0x50 ∧ (0x50#8).toNat ∉ [0x00, 0x0C, 0x10, 0x14, 0x48]) ∧
      ((0x04#8).toNat % 4 = 0 ∧ (0x04#8).toNat ≤ 0x50 ∧ (0x04#8).toNat ∉ [0x00, 0x0C, 0x10, 0x14, 0x48]) := by decide

theorem witness_CommandWriteIsDispatched :
    decodeCommand 0xFFFFFFFF#32 = none ∧ decodeCommand 0x10000001#32 = some (.bit true) ∧ (faulted 1 []).lc = .fault ∧
      decodeCommand 0x10000001#32 ≠ none := by decide

theorem witness_RefusalChangesOnlyLcode :
    exec (.rd 0x54#8) (quiet 1 tiny []) = .next (stateOf State.reset (exec (.rd 0x54#8) (quiet 1 tiny []))) ∧
      (stateOf State.reset (exec (.rd 0x54#8) (quiet 1 tiny []))).resp = some ⟨true, 0#32⟩ ∧
      exec (.rd 0x50#8) (quiet 1 tiny []) = .next (stateOf State.reset (exec (.rd 0x50#8) (quiet 1 tiny []))) ∧
      (stateOf State.reset (exec (.rd 0x50#8) (quiet 1 tiny []))).resp = some ⟨false, 0x42505401#32⟩ :=
  ⟨next_of_goesOn _ (by decide), by decide, next_of_goesOn _ (by decide), by decide⟩

theorem witness_AdmittedCommandsStartTheirSegment :
    (quiet 1 tiny []).lc = .uncal ∧ (calibrated 1 []).lc = .cald ∧ (ready 1 []).lc = .ready := by decide

/-- The hypotheses of `CalRunsTheCalibrator`, with a clock that is 0. -/
theorem witness_CalRunsTheCalibrator_clkZero :
    let s := quiet 2 Params.reference [.txn (encode .cal)]
    s.params.InRange ∧ s.Accepts .cal [] ∧ s.lc = .uncal ∧ s.rem = 0#40 ∧ 2 = 1 + s.params.calCycles.val ∧ s.NoReset 2 ∧
      s.NoStall 1 2 ∧ s.clkhz.toNat = 0 :=
  ⟨reference_inRange, by unfold State.Accepts; decide, by decide, by decide, by decide, quiet_noReset 2, quiet_noStall 1 2,
    by decide⟩

/-- A state that accepts `CAL` with the configuration given. -/
def configured (hz fn fd : Word) : State :=
  { quiet 2 Params.reference [.txn (encode .cal)] with clkhz := hz, fudgeNum := fn, fudgeDen := fd }

/-- The hypotheses of `CalRunsTheCalibrator` hold of it, whatever the configuration. -/
theorem configured_hypotheses (hz fn fd : Word) :
    let s := configured hz fn fd
    s.params.InRange ∧ s.Accepts .cal [] ∧ s.lc = .uncal ∧ s.rem = 0#40 ∧ 2 = 1 + s.params.calCycles.val ∧ s.NoReset 2 ∧
      s.NoStall 1 2 :=
  ⟨reference_inRange, ⟨rfl, rfl, rfl⟩, rfl, rfl, rfl,
    quiet_noReset (p := Params.reference) (q := [.txn (encode .cal)]) 2,
    quiet_noStall (p := Params.reference) (q := [.txn (encode .cal)]) 1 2⟩

/-- The premises of its other four clauses at such states, with configurations of spec/95 part 2.2: a zero fudge factor,
2 857 142 Hz, fudge 1342178/1 at 64 MHz (the latch count alone is too big), and 2 857 143 Hz. -/
theorem witness_CalRunsTheCalibrator_clauses :
    (configured 64000000#32 0#32 1#32).fudgeNum.toNat = 0 ∧
      (let s := configured 2857142#32 1#32 1#32;
        (counts s.params s.clkhz.toNat s.fudgeNum.toNat s.fudgeDen.toNat).h0 = 0) ∧
      (let s := configured 64000000#32 1342178#32 1#32;
        (counts s.params s.clkhz.toNat s.fudgeNum.toNat s.fudgeDen.toNat).someZero = false ∧
          2 ^ 32 ≤ (counts s.params s.clkhz.toNat s.fudgeNum.toNat s.fudgeDen.toNat).rs) ∧
      (configured 2857143#32 1#32 1#32).calibration.toOption.isSome = true := by decide +kernel

theorem witness_ConvStoresTheFloor :
    ((ready64 []).lc = .ready ∧ (ready64 []).tfDen.toNat * (ready64 []).fudgeDen.toNat ≠ 0 ∧
      (0 * 8 * 1) / (125 * 1) < 2 ^ 32) ∧
    2 ^ 32 ≤ (4294967295 * (ready64 []).tfNum.toNat * 16) / ((ready64 []).tfDen.toNat * (ready64 []).fudgeDen.toNat) ∧
    (faulted 1 []).lc = .fault ∧ (quiet 1 tiny []).lc = .uncal := by decide

theorem witness_ConvStoresTheFloor_invariant : (calibrated 1 []).Inv ∧ (calibrated 1 []).lc = .cald :=
  ⟨calibrated_inv 1 [], rfl⟩

/-- 64 000 000 is `2^12 * 5^6`. -/
theorem witness_TickFactorIsReduced :
    0 < 64000000 ∧ 2 ^ 12 ∣ 64000000 ∧ ¬2 ^ (12 + 1) ∣ 64000000 ∧ 5 ^ 6 ∣ 64000000 ∧ ¬5 ^ (6 + 1) ∣ 64000000 := by decide

theorem witness_ReductionChangesNoResult : 0 < 64000000 ∧ 0 < 3 := by decide

theorem witness_ConversionLaws : 0 < 1 ∧ 0 < 4294967295 ∧ 1 ≤ 64000000 ∧ 350 ≤ 800 := by decide

/-- Both sides of the bound of rule R133. -/
theorem witness_SupportedRangeAtReferenceTimings :
    Params.reference.t0hNs = 350#32 ∧ Params.reference.t0lNs = 800#32 ∧ Params.reference.t1hNs = 700#32 ∧
      Params.reference.t1lNs = 600#32 ∧ Params.reference.resUs = 50#32 ∧ ¬2857143 ≤ (2857142#32).toNat ∧
      2857143 ≤ (2857143#32).toNat := by decide

theorem witness_LatchLastsTheMinimum : (ready 1 []).Inv ∧ (ready 1 []).lc = .ready ∧ (ready 1 []).TrueClock :=
  ⟨ready_inv 1 [], rfl, by constructor <;> decide⟩

theorem witness_PulseCountsAreFloors :
    (ready 1 []).Inv ∧ (ready 1 []).lc = .ready ∧ (ready 1 []).TrueClock ∧
      ((ready 1 []).params.t1hNs, (ready 1 []).cntT1h) ∈
        [((ready 1 []).params.t0hNs, (ready 1 []).cntT0h), ((ready 1 []).params.t0lNs, (ready 1 []).cntT0l),
          ((ready 1 []).params.t1hNs, (ready 1 []).cntT1h), ((ready 1 []).params.t1lNs, (ready 1 []).cntT1l)] :=
  ⟨ready_inv 1 [], rfl, by constructor <;> decide, by decide⟩

theorem witness_InitDrivesTheLineLow :
    let s := calibrated 2 [.txn (encode .init)]
    s.params.InRange ∧ s.Accepts .init [] ∧ s.lc = .cald ∧ s.rem = 0#40 ∧ 2 = 1 + s.params.setCycles.val ∧ s.NoReset 2 ∧
      s.NoStall 1 2 :=
  ⟨tiny_inRange, by unfold State.Accepts; decide, by decide, by decide, by decide,
    quiet_noReset (p := tiny) (q := []) 2, quiet_noStall (p := tiny) (q := []) 1 2⟩

theorem ready_noReset (n : Nat) (q : List HostItem) : (ready n q).NoReset n := quiet_noReset (p := tiny) (q := q) n
theorem ready_noStall (a n : Nat) (q : List HostItem) : (ready n q).NoStall a n :=
  quiet_noStall (p := tiny) (q := q) a n

/-- A 1 bit with counts 2 and 1 takes `1 + 2 + 3` cycles. -/
theorem witness_BitEmitsOnePulse :
    let s := ready 6 [.txn (encode (.bit true))]
    s.Inv ∧ s.Accepts (.bit true) [] ∧ s.lc = .ready ∧
      6 = 1 + 2 * s.params.setCycles.val + (s.cntT1h.toNat + s.cntT1l.toNat) * s.params.iterCycles.val ∧ s.NoReset 6 ∧
      s.NoStall 1 6 :=
  ⟨ready_inv _ _, by unfold State.Accepts; decide, rfl, by decide, ready_noReset _ _, ready_noStall _ _ _⟩

/-- `0x80` has one 1 bit: `1 + 16 + 1*3 + 7*2` cycles. -/
theorem witness_ByteEmitsEightPulses :
    let s := ready 34 [.txn (encode (.byte 0x80#8))]
    s.Inv ∧ s.Accepts (.byte 0x80#8) [] ∧ s.lc = .ready ∧
      1 = [true, false, false, false, false, false, false, false].countP (· == true) ∧
      34 = 1 + 16 * s.params.setCycles.val +
        (1 * (s.cntT1h.toNat + s.cntT1l.toNat) + (8 - 1) * (s.cntT0h.toNat + s.cntT0l.toNat)) * s.params.iterCycles.val ∧
      s.NoReset 34 ∧ s.NoStall 1 34 :=
  ⟨ready_inv _ _, by unfold State.Accepts; decide, rfl, by decide, by decide, ready_noReset _ _, ready_noStall _ _ _⟩

theorem witness_LatchHoldsTheLineLow :
    let s := ready 2 [.txn (encode .latch)]
    s.Inv ∧ s.Accepts .latch [] ∧ s.lc = .ready ∧ 2 = 1 + s.cntRes.toNat * s.params.iterCycles.val ∧ s.NoReset 2 ∧
      s.NoStall 1 2 :=
  ⟨ready_inv _ _, by unfold State.Accepts; decide, rfl, by decide, ready_noReset _ _, ready_noStall _ _ _⟩

theorem witness_DurationOfEveryOperation :
    let s := ready 34 [.txn (encode (.byte 0x80#8))]
    s.Inv ∧ (Instr.byte 0x80#8).wellFormed = true ∧ s.Accepts (.byte 0x80#8) [] ∧ s.duration (.byte 0x80#8) = 34 ∧
      s.NoReset 34 ∧ s.NoStall 1 34 :=
  ⟨ready_inv _ _, by decide, by unfold State.Accepts; decide, by decide, ready_noReset _ _, ready_noStall _ _ _⟩

/-- One stalled cycle of two, with two cycles left. -/
theorem witness_StalledCyclesLengthenTheSegment :
    let s := { pulsing 2 2#40 [] with stallPlan := [true, false] }
    s.phase ≠ .idle ∧ 0 < 2 ∧ s.NoReset 2 ∧ 2 - s.stallCount 2 < s.rem.toNat :=
  ⟨by decide, by decide, ready_noReset 2 [], by decide⟩

/-- A 0 bit with one stalled cycle in its high pulse: six cycles. -/
def stalledBit : State := { ready 6 [.txn (encode (.bit false))] with stallPlan := [false, false, true, false, false, false] }

theorem stalledBit_inv : stalledBit.Inv :=
  { ready_inv 6 [.txn (encode (.bit false))] with calibrated := fun _ => ⟨_, tiny_calibrates, rfl⟩ }

/-- The hypothesis that PHASE stays busy in between, by evaluation. -/
theorem busy_of_check {s : State} {n : Nat}
    (h : (List.range n).all (fun k =>
      k == 0 || (goesOn (runFor k s) && decide ((stateOf s (runFor k s)).phase ≠ .idle))) = true) :
    ∀ k, 0 < k → k < n → ∃ v, runFor k s = .next v ∧ v.phase ≠ .idle := by
  intro k hk hn
  have hx := List.all_eq_true.1 h k (List.mem_range.2 hn)
  simp only [Bool.or_eq_true, beq_iff_eq, Bool.and_eq_true, decide_eq_true_eq] at hx
  rcases hx with h0 | ⟨h1, h2⟩
  · omega
  · exact ⟨_, next_of_goesOn s h1, h2⟩

theorem witness_StalledBitKeepsItsShape :
    stalledBit.Inv ∧ stalledBit.Accepts (.bit false) [] ∧ stalledBit.lc = .ready ∧ stalledBit.NoReset 6 ∧ 0 < 6 ∧
      (∃ t, runFor 6 stalledBit = .next t ∧ t.phase = .idle) ∧
      ∀ k, 0 < k → k < 6 → ∃ v, runFor k stalledBit = .next v ∧ v.phase ≠ .idle :=
  ⟨stalledBit_inv, by unfold State.Accepts; decide, rfl, ready_noReset 6 [], by decide,
    ⟨_, next_of_goesOn stalledBit (by decide +kernel), by decide +kernel⟩, busy_of_check (by decide +kernel)⟩

/-- The same bit: no stalled cycle is allowed at these counts, and none with the pin high is what a 1 bit may have; here the
stall falls in the SETH, where the pin is low. -/
def stalledEarly : State := { stalledBit with stallPlan := [false, true, false, false, false, false] }

theorem witness_ThresholdDecoderToleratesStalls :
    stalledEarly.Inv ∧ stalledEarly.Accepts (.bit false) [] ∧ stalledEarly.lc = .ready ∧
      stalledEarly.cntT0h.toNat < stalledEarly.cntT1h.toNat ∧ stalledEarly.NoReset 6 ∧ 0 < 6 ∧
      (∃ t, runFor 6 stalledEarly = .next t ∧ t.phase = .idle) ∧
      (∀ k, 0 < k → k < 6 → ∃ v, runFor k stalledEarly = .next v ∧ v.phase ≠ .idle) ∧
      (List.range 6).countP (fun k => stalledEarly.stallAt k && decide ((traceFor 6 stalledEarly)[k]? = some .high)) ≤
        (stalledEarly.cntT1h.toNat - stalledEarly.cntT0h.toNat) * stalledEarly.params.iterCycles.val / 2 :=
  ⟨{ stalledBit_inv with calibrated := fun _ => ⟨_, tiny_calibrates, rfl⟩ }, by unfold State.Accepts; decide, rfl, by decide,
    ready_noReset 6 [], by decide, ⟨_, next_of_goesOn stalledEarly (by decide +kernel), by decide +kernel⟩,
    busy_of_check (by decide +kernel), by decide +kernel⟩

/-- A 1 bit with one stalled cycle in its high pulse, the other form of the statement's `b`: seven cycles. -/
def stalledOne : State :=
  { ready 7 [.txn (encode (.bit true))] with stallPlan := [false, false, false, true, false, false, false] }

theorem witness_ThresholdDecoderToleratesStalls_one :
    stalledOne.Inv ∧ stalledOne.Accepts (.bit true) [] ∧ stalledOne.lc = .ready ∧
      stalledOne.cntT0h.toNat < stalledOne.cntT1h.toNat ∧ stalledOne.NoReset 7 ∧ 0 < 7 ∧
      (∃ t, runFor 7 stalledOne = .next t ∧ t.phase = .idle) ∧
      ∀ k, 0 < k → k < 7 → ∃ v, runFor k stalledOne = .next v ∧ v.phase ≠ .idle :=
  ⟨{ ready_inv 7 [.txn (encode (.bit true))] with calibrated := fun _ => ⟨_, tiny_calibrates, rfl⟩ },
    by unfold State.Accepts; decide, rfl, by decide, ready_noReset 7 [], by decide,
    ⟨_, next_of_goesOn stalledOne (by decide +kernel), by decide +kernel⟩, busy_of_check (by decide +kernel)⟩

/-- The byte `0x80` with one stalled cycle, in the first high pulse: 35 cycles. -/
def stalledByte : State :=
  { ready 35 [.txn (encode (.byte 0x80#8))] with
    stallPlan := [false, false, false, true] ++ List.replicate 31 false }

theorem witness_StalledByteKeepsItsShape :
    stalledByte.Inv ∧ stalledByte.Accepts (.byte 0x80#8) [] ∧ stalledByte.lc = .ready ∧ stalledByte.NoReset 35 ∧ 0 < 35 ∧
      (∃ t, runFor 35 stalledByte = .next t ∧ t.phase = .idle) ∧
      (∀ k, 0 < k → k < 35 → ∃ v, runFor k stalledByte = .next v ∧ v.phase ≠ .idle) ∧ stalledByte.stallAt 3 = true :=
  ⟨{ ready_inv 35 [.txn (encode (.byte 0x80#8))] with calibrated := fun _ => ⟨_, tiny_calibrates, rfl⟩ },
    by unfold State.Accepts; decide, rfl, ready_noReset 35 [], by decide,
    ⟨_, next_of_goesOn stalledByte (by decide +kernel), by decide +kernel⟩, busy_of_check (by decide +kernel), by decide⟩

/-- No reset and no stall for as many cycles as the bound asks. -/
theorem witness_EveryCommandCompletes :
    let s := ready (32 * Params.maxRem) []
    s.Inv ∧ s.NoReset (32 * Params.maxRem) ∧ 32 * Params.maxRem ≤ 32 * Params.maxRem - s.stallCount (32 * Params.maxRem) :=
  ⟨ready_inv _ _, ready_noReset _ _, by
    rw [show (ready (32 * Params.maxRem) []).stallCount (32 * Params.maxRem) = 0 from
      quiet_stallCount (p := tiny) (q := []) _, Nat.sub_zero]⟩

theorem witness_ResetStateSatisfiesTheInvariant : (pulsing 1 2#40 []).params.InRange := tiny_inRange

/-- A step of a state that satisfies the invariant, in a cycle with `rst = 0`: what the whole-machine statements assume. -/
theorem witness_invariant_step :
    (pulsing 1 2#40 []).Inv ∧ (pulsing 1 2#40 []).rstAt 0 = false ∧
      step (pulsing 1 2#40 []) = .next (stateOf State.reset (step (pulsing 1 2#40 []))) :=
  ⟨pulsing_inv 1 [], by decide, next_of_goesOn _ (by decide)⟩

theorem witness_StepKeepsTheInvariant :
    (ready 1 [.txn (encode .latch)]).Inv ∧
      step (ready 1 [.txn (encode .latch)]) = .next (stateOf State.reset (step (ready 1 [.txn (encode .latch)]))) :=
  ⟨ready_inv _ _, next_of_goesOn _ (by decide)⟩

theorem witness_ReachableStatesSatisfyR55 : Reachable (quiet 1 tiny [.txn (encode .cal)]) :=
  .start (quiet 1 tiny [.txn (encode .cal)]) tiny_inRange

theorem witness_OnlyMalformedRecordsStopTheMachine : (quiet 1 tiny [.txn 0x020000000000#48]).Inv :=
  quiet_inv tiny_inRange _ _

theorem witness_ConfigurationIsFrozen :
    let s := ready 1 [.txn (encode (.wr 0x0C#8 5#32))]
    step s = .next (stateOf s (step s)) ∧ s.rstAt 0 = false ∧ s.lc ≠ .uncal ∧ s.Inv :=
  ⟨next_of_goesOn _ (by decide), by decide, by decide, ready_inv _ _⟩

theorem witness_LifecycleMovesOnlyByItsTable :
    (calibrated 1 [.txn (encode .init)]).Inv ∧
      step (calibrated 1 [.txn (encode .init)]) =
        .next (stateOf State.reset (step (calibrated 1 [.txn (encode .init)]))) :=
  ⟨calibrated_inv _ _, next_of_goesOn _ (by decide)⟩

theorem witness_FaultIsAbsorbing :
    let s := faulted 1 [.txn (encode .cal)]
    s.Inv ∧ s.lc = .fault ∧ s.rstAt 0 = false ∧ step s = .next (stateOf s (step s)) :=
  ⟨faulted_inv _ _, rfl, by decide, next_of_goesOn _ (by decide)⟩

theorem witness_OnlySetSegmentsMoveThePin :
    let s := { pulsing 1 1#40 [] with phase := .setl }
    step s = .next (stateOf s (step s)) ∧ s.rstAt 0 = false ∧ s.pinOe = true ∧ (stateOf s (step s)).pin ≠ s.pin :=
  ⟨next_of_goesOn _ (by decide), by decide, by decide, by decide⟩

theorem witness_ErrorCodesRecordErrorsOnly :
    let s := ready 1 [.txn (encode .cal)]
    s.Inv ∧ step s = .next (stateOf s (step s)) ∧ s.rstAt 0 = false ∧ (stateOf s (step s)).lcode ≠ s.lcode :=
  ⟨ready_inv _ _, next_of_goesOn _ (by decide), by decide, by decide⟩

/-- A failing `CAL`: the clock of the reset state is 0. -/
theorem witness_ErrorCodesRecordErrorsOnly_fatal :
    let s := { quiet 1 tiny [] with phase := .calculate, rem := 1#40 }
    step s = .next (stateOf s (step s)) ∧ s.rstAt 0 = false ∧ (stateOf s (step s)).fcode ≠ s.fcode :=
  ⟨next_of_goesOn _ (by decide), by decide, by decide⟩

theorem witness_OneResponsePerTransaction :
    let s := ready 1 [.txn (encode (.rd 0x50#8))]
    s.Inv ∧ step s = .next (stateOf s (step s)) ∧ s.rstAt 0 = false ∧ s.phase = .idle ∧
      (stateOf s (step s)).resp = some ⟨false, 0x42505401#32⟩ :=
  ⟨ready_inv _ _, next_of_goesOn _ (by decide), by decide, by decide, by decide⟩

theorem witness_IdleLineIsLow : (ready 1 []).Inv ∧ (ready 1 []).phase = .idle ∧ (ready 1 []).lc = .ready :=
  ⟨ready_inv _ _, rfl, rfl⟩

theorem witness_OutputsFollowTheState : (pulsing 1 2#40 []).rstAt 0 = false := by decide

/-- The boot sequence at one hertz: `3 + 2 + 2` cycles. -/
theorem witness_BootReachesReady :
    let s := quiet 7 tiny (present (setupFudge 1#32 1#32 1#32))
    s.params.InRange ∧ s.host = present (setupFudge 1#32 1#32 1#32) ∧
      calibrate s.params (1#32).toNat (1#32).toNat (1#32).toNat = .ok ⟨1, 1000000000, 1, 1, 2, 1, 1⟩ ∧
      7 = 3 + (1 + s.params.calCycles.val) + (1 + s.params.setCycles.val) ∧ s.NoReset 7 ∧ s.NoStall 0 7 :=
  ⟨tiny_inRange, rfl, tiny_calibrates, by decide, quiet_noReset 7, quiet_noStall 0 7⟩

theorem honoursNp_of_check {s : State} {n : Nat}
    (h : (List.range n).all (fun k => !(stateOf s (runFor k s)).outputs.np || !(stateOf s (runFor k s)).stallAt 0) = true) :
    s.HonoursNp n := by
  intro k hk t ht hnp
  have hx := List.all_eq_true.1 h k (List.mem_range.2 hk)
  simp only [ht, stateOf, hnp, Bool.not_true, Bool.false_or, Bool.not_eq_true'] at hx
  exact hx

/-- What the host of the next witness sends: a gap, a 1 bit, and the byte `0x01`: `1 + 6 + 34` cycles. -/
def sent : List (Option Instr) := [none, some (.bit true), some (.byte 0x01#8)]

def sending : State := ready 41 (sent.map (fun x => match x with | none => .idle | some i => .txn (encode i)))

theorem witness_TraceDecodesToTheBitsSent :
    sending.Inv ∧ sending.lc = .ready ∧ sending.phase = .idle ∧ sending.cntT0h ≠ sending.cntT1h ∧
      (∀ i, some i ∈ sent → (∃ b, i = .bit b) ∨ ∃ v, i = .byte v) ∧ sending.NoReset 41 ∧ sending.HonoursNp 41 ∧
      ∃ t, runFor 41 sending = .next t ∧ t.phase = .idle ∧ t.host = [] :=
  ⟨ready_inv _ _, rfl, rfl, by decide, by
    intro i hi
    simp only [sent, List.mem_cons, Option.some.injEq, List.not_mem_nil, or_false, reduceCtorEq, false_or] at hi
    rcases hi with rfl | rfl
    · exact .inl ⟨_, rfl⟩
    · exact .inr ⟨_, rfl⟩, ready_noReset _ _, honoursNp_of_check (by decide +kernel),
    ⟨_, next_of_goesOn sending (by decide +kernel), by decide +kernel, by decide +kernel⟩⟩

/-- One LED of three zero bytes, an idle cycle, and the latch: `3*33 + 1 + 2` cycles. -/
def framing : State :=
  ready 102 [.txn (encode (.byte 0#8)), .txn (encode (.byte 0#8)), .txn (encode (.byte 0#8)), .idle, .txn (encode .latch)]

theorem witness_FrameTakesItsTime :
    framing.Inv ∧ framing.lc = .ready ∧ framing.phase = .idle ∧ [0#8, 0#8, 0#8].length = 3 * 1 ∧
      framing.host.filter (fun x => decide (x ≠ .idle)) =
        [0#8, 0#8, 0#8].map (fun v => .txn (encode (.byte v))) ++ [.txn (encode .latch)] ∧
      framing.host.head? ≠ some .idle ∧ framing.NoReset 102 ∧
      ∃ t, runFor 102 framing = .next t ∧ t.phase = .idle ∧ t.host = [] :=
  ⟨ready_inv _ _, rfl, rfl, by decide, by decide, by decide, ready_noReset _ _,
    ⟨_, next_of_goesOn framing (by decide +kernel), by decide +kernel, by decide +kernel⟩⟩

/-- Parameters that give the counts 1, 1, 3, 1 at one hertz, so that a 0 bit may be stalled for one cycle. -/
def wide : Params := { tiny with t1hNs := 3000000000#32 }

theorem wide_inRange : wide.InRange := by constructor <;> decide

theorem wide_calibrates : calibrate wide 1 1 1 = .ok ⟨1, 1000000000, 1, 1, 3, 1, 1⟩ := by decide +kernel

/-- A gap, then a 0 bit with one stalled cycle in its high pulse. -/
def sentStalled : List (Option Instr) := [none, some (.bit false)]

def sendingStalled : State :=
  { ready 7 (sentStalled.map (fun x => match x with | none => .idle | some i => .txn (encode i))) with
    params := wide, cntT1h := 3#32, stallPlan := [false, false, false, true, false, false, false] }

theorem sendingStalled_inv : sendingStalled.Inv :=
  { ready_inv 7 (sentStalled.map (fun x => match x with | none => .idle | some i => .txn (encode i))) with
    params := wide_inRange, calibrated := fun _ => ⟨_, wide_calibrates, rfl⟩
    uncalibrated := fun h => h.elim (fun h => by cases h) (fun h => by cases h) }

/-- The decoder's bound on the stalls of a 0 bit's pulse, by evaluation over the cycles of the run. -/
theorem bound_of_check {s : State} {n bound : Nat}
    (h : (List.range n).all (fun p => (stateOf s (runFor p s)).curbit || (List.range (n - p + 1)).all (fun h =>
      !(List.range h).all (fun j => decide ((traceFor n s)[p + j]? = some .high)) ||
        decide ((List.range h).countP (fun j => s.stallAt (p + j)) ≤ bound))) = true)
    (hn : (traceFor n s).length = n) :
    ∀ (p h : Nat) (u : State), (∀ j < h, (traceFor n s)[p + j]? = some .high) → runFor p s = .next u → u.curbit = false →
      (List.range h).countP (fun j => s.stallAt (p + j)) ≤ bound := by
  intro p h' u hhigh hrun hcur
  rcases Nat.eq_zero_or_pos h' with rfl | hpos
  · simp
  have hlast := hhigh (h' - 1) (by omega)
  have hlt : p + (h' - 1) < n := hn ▸ (List.getElem?_eq_some_iff.1 hlast).1
  have hx := List.all_eq_true.1 h p (List.mem_range.2 (by omega))
  simp only [hrun, stateOf, hcur, Bool.false_or] at hx
  have hy := List.all_eq_true.1 hx h' (List.mem_range.2 (by omega))
  simp only [Bool.or_eq_true, Bool.not_eq_true', decide_eq_true_eq] at hy
  refine hy.resolve_left fun hf => ?_
  rw [List.all_eq_true.2 fun j hj => decide_eq_true (hhigh j (List.mem_range.1 hj))] at hf
  cases hf

theorem witness_ThresholdDecoderRecoversTheBitsSent :
    sendingStalled.Inv ∧ sendingStalled.lc = .ready ∧ sendingStalled.phase = .idle ∧
      sendingStalled.cntT0h.toNat < sendingStalled.cntT1h.toNat ∧
      (∀ i, some i ∈ sentStalled → (∃ b, i = .bit b) ∨ ∃ v, i = .byte v) ∧ sendingStalled.NoReset 7 ∧
      (∃ t, runFor 7 sendingStalled = .next t ∧ t.phase = .idle ∧ t.host = []) ∧
      ∀ (p h : Nat) (u : State), (∀ j < h, (traceFor 7 sendingStalled)[p + j]? = some .high) →
        runFor p sendingStalled = .next u → u.curbit = false →
        (List.range h).countP (fun j => sendingStalled.stallAt (p + j)) ≤
          (sendingStalled.cntT1h.toNat - sendingStalled.cntT0h.toNat) * sendingStalled.params.iterCycles.val / 2 :=
  ⟨sendingStalled_inv, rfl, rfl, by decide, by
    intro i hi
    simp only [sentStalled, List.mem_cons, Option.some.injEq, List.not_mem_nil, or_false, reduceCtorEq, false_or] at hi
    exact .inl ⟨_, hi⟩, ready_noReset 7 [],
    ⟨_, next_of_goesOn sendingStalled (by decide +kernel), by decide +kernel, by decide +kernel⟩,
    bound_of_check (by decide +kernel) (by decide +kernel)⟩

theorem witness_DrivenLineFollowsThePin :
    SoleDriver (fun _ => false) 1 ∧ runFor 0 (ready 1 []) = .next (ready 1 []) ∧ (ready 1 []).rstAt 0 = false ∧
      (ready 1 []).pinOe = true :=
  ⟨fun _ _ => rfl, rfl, by decide, rfl⟩

/-- A latch at one hertz ends its run after two cycles, and not before. -/
theorem witness_RunEndsOnce :
    let s := ready 2 [.txn (encode .latch)]
    (∃ t, runFor 2 s = .next t ∧ t.ended = true) ∧ s.ended = false :=
  ⟨⟨_, next_of_goesOn (ready 2 [.txn (encode .latch)]) (by decide), by decide⟩, by decide⟩

/-- A latch, with no reset and no stall for as many cycles as the bound asks. -/
theorem witness_EveryRunEnds :
    let n := 2 + 32 * Params.maxRem
    let s := ready n [.txn (encode .latch)]
    s.Inv ∧ s.phase = .idle ∧ (∃ r, .txn r ∈ s.host) ∧ (∀ r, .txn r ∈ s.host → ∃ i, decode r = .ok i) ∧ s.NoReset n ∧
      s.host.length * (2 + 32 * Params.maxRem) ≤ n - s.stallCount n := by
  refine ⟨ready_inv _ _, rfl, ⟨encode .latch, .head _⟩, ?_, ready_noReset _ _, ?_⟩
  · rintro r hr
    cases hr with
    | head => exact ⟨.latch, by decide⟩
    | tail _ h => cases h
  · rw [show (ready (2 + 32 * Params.maxRem) [.txn (encode .latch)]).stallCount (2 + 32 * Params.maxRem) = 0 from
      quiet_stallCount (p := tiny) (q := [.txn (encode .latch)]) _, Nat.sub_zero]
    exact Nat.le_of_eq (Nat.one_mul _)

/-! ### The premises of R224 and R238 can be met -/

/-- The host's `CAL` at one hertz, the real frequency, as its last transaction. -/
def calibrating : State := { quiet 2 tiny [.txn (encode .cal)] with clkhz := 1#32 }

theorem calibrating_accepted {P : State → Instr → Prop} (h : P calibrating .cal) : calibrating.EveryAccepted 2 P := by
  intro k hk t ht i hi
  match k, hk with
  | 0, _ =>
    cases ht
    have hc : calibrating.accepted = some .cal := by decide
    cases hc.symm.trans hi
    exact h
  | 1, _ =>
    have hn : (stateOf calibrating (runFor 1 calibrating)).accepted = none := by decide
    rw [ht] at hn
    cases hn.symm.trans hi

/-- R224 (e): a fudge pair of 0/0 is not `1 / ITER_CYCLES`. -/
theorem test_trueClock_refuses_zero_fudge : ¬(State.TrueClock { calibrating with fudgeNum := 0#32, fudgeDen := 0#32 }) :=
  fun h => absurd h.fudgeDen_pos (by decide)

theorem witness_HostPremises : calibrating.HostPremises (fun _ => false) (fun _ => false) 2 where
  realClock := calibrating_accepted fun _ => by constructor <;> decide
  stopsOnErr := calibrating_accepted fun h => by cases h
  ownsLine := fun _ _ => rfl
  noLateConfiguration := calibrating_accepted fun _ => rfl
  noPulseInFault := calibrating_accepted fun h => by cases h
  oneHost := fun k _ t _ hp => by
    cases hv : (t.request false).valid with
    | false => rfl
    | true => exact ((((t.request_valid_iff false).1 hv).2.resolve_right (by decide)) |> hp).elim

end Sys2Proof.Tests
end

section
/-! PROOFS. The state and its invariant: the reset table (R56), the invariant's step lemma (R55), the frames of configuration,
lifecycle, pin and error codes (R42, R45, R47, R52), and the line the block drives (R51). -/

namespace Sys2Proof.Machine

/-! ### What a cycle without reset changes -/

/-- A cycle with `rst = 0` spends inputs and counts REM, or carries out a transaction in IDLE, or is the unstalled last
cycle of a segment (R100, R153). -/
theorem step_cases_of_noReset {s t : State} (h : step s = .next t) (hr : s.rstAt 0 = false) :
    (∃ q r, t = { s.spend with host := q, rem := r }) ∨
    (s.phase = .idle ∧ ∃ i, ExecTo i s.acceptCycle t) ∨
    (s.phase ≠ .idle ∧ s.stallAt 0 = false ∧ s.rem.toNat ≤ 1 ∧ SegmentEndTo s.spend t) := by
  rcases step_cases h with
    ⟨hr', -⟩ | ⟨-, -, -, rfl⟩ | ⟨-, hp, r, rest, i, -, -, he⟩ | ⟨-, -, -, rfl⟩ | ⟨-, hp, hs, rfl⟩
  · simp [hr] at hr'
  · exact .inl ⟨_, _, rfl⟩
  · exact .inr (.inl ⟨hp, i, exec_cases he⟩)
  · exact .inl ⟨_, _, rfl⟩
  · rcases busyCycle_cases s.spend with ⟨-, he⟩ | ⟨hlast, he⟩ <;> rw [he]
    · exact .inl ⟨_, _, rfl⟩
    · have hrem : s.rem.toNat ≤ 1 := by simpa [BitVec.lt_def] using hlast
      exact .inr (.inr ⟨hp, hs, hrem, segmentEnd_cases _⟩)

/-- The seven result registers (R33 to R39) of two states are the same. -/
def State.SameResults (s t : State) : Prop :=
  t.tfNum = s.tfNum ∧ t.tfDen = s.tfDen ∧ t.cntT0h = s.cntT0h ∧ t.cntT0l = s.cntT0l ∧ t.cntT1h = s.cntT1h ∧
    t.cntT1l = s.cntT1l ∧ t.cntRes = s.cntRes

/-- The three configuration registers (R25 to R27) of two states are the same. -/
def State.SameConfig (s t : State) : Prop := t.clkhz = s.clkhz ∧ t.fudgeNum = s.fudgeNum ∧ t.fudgeDen = s.fudgeDen

/-- What no transaction changes in its acceptance cycle. -/
theorem ExecTo.frame {i : Instr} {s t : State} (h : ExecTo i s t) :
    t.params = s.params ∧ s.SameResults t ∧ t.lc = s.lc ∧ t.pin = s.pin ∧ t.pinOe = s.pinOe ∧ t.fcode = s.fcode := by
  cases h <;> simp [State.SameResults]

/-- Only writes in UNCAL reach the configuration registers (R42). -/
theorem ExecTo.sameConfig {i : Instr} {s t : State} (h : ExecTo i s t) (hl : s.lc ≠ .uncal) : s.SameConfig t := by
  cases h with
  | clkhz d hu => exact absurd hu hl
  | fudgeNum d hu => exact absurd hu hl
  | fudgeDen d hu => exact absurd hu hl
  | _ => simp [State.SameConfig]

/-- Only a refusal writes LCODE (R192). -/
theorem ExecTo.lcode {i : Instr} {s t : State} (h : ExecTo i s t) :
    t.lcode = s.lcode ∨ (t.resp = errResponse ∧ t.lcode ≠ 0#8) := by
  cases h with
  | refuse c => exact .inr ⟨rfl, c.code_ne_zero⟩
  | _ => exact .inl rfl

/-- What no end of a segment changes (R154). -/
theorem SegmentEndTo.frame {s t : State} (h : SegmentEndTo s t) :
    t.params = s.params ∧ s.SameConfig t ∧ t.lcode = s.lcode := by
  cases h <;> simp [State.SameConfig]

/-- Only the end of a CALC segment that reaches CALD writes the results (R126). -/
theorem SegmentEndTo.sameResults {s t : State} (h : SegmentEndTo s t) :
    s.SameResults t ∨ (s.phase = .calculate ∧ t.lc = .cald) := by
  cases h with
  | calibrated k hp => exact .inr ⟨hp, rfl⟩
  | _ => exact .inl (by simp [State.SameResults])

/-- Only the ends of CALC and SETI segments move LC (R47, R154). -/
theorem SegmentEndTo.lc {s t : State} (h : SegmentEndTo s t) :
    t.lc = s.lc ∨
    (s.phase = .calculate ∧ t.phase = .idle ∧ (t.lc = .cald ∨ t.lc = .fault)) ∨
    (s.phase = .seti ∧ t.phase = .idle ∧ t.lc = .ready) := by
  cases h with
  | calibrated k hp => exact .inr (.inl ⟨hp, rfl, .inl rfl⟩)
  | fatal c hp => exact .inr (.inl ⟨hp, rfl, .inr rfl⟩)
  | init hp => exact .inr (.inr ⟨hp, rfl, rfl⟩)
  | _ => exact .inl rfl

/-- Only the ends of SETI, SETH and SETL segments move the pin, and none releases it (R51, R154). -/
theorem SegmentEndTo.pin {s t : State} (h : SegmentEndTo s t) :
    (s.pinOe = true → t.pinOe = true) ∧
    (t.pin ≠ s.pin ∨ t.pinOe ≠ s.pinOe → s.phase = .seti ∨ s.phase = .seth ∨ s.phase = .setl) := by
  cases h with
  | init hp => exact ⟨fun _ => rfl, fun _ => .inl hp⟩
  | high hp => exact ⟨id, fun _ => .inr (.inl hp)⟩
  | low hp => exact ⟨id, fun _ => .inr (.inr hp)⟩
  | _ => simp

/-- Only the end of a CALC segment that reaches FAULT writes FCODE (R191). -/
theorem SegmentEndTo.fcode {s t : State} (h : SegmentEndTo s t) :
    t.fcode = s.fcode ∨ (s.phase = .calculate ∧ t.lc = .fault ∧ t.resp = errResponse) := by
  cases h with
  | fatal c hp => exact .inr ⟨hp, rfl, rfl⟩
  | _ => exact .inl rfl

/-! ### Lengths of segments (R49, R151, R152) -/

/-- A length REM can hold, and that is not 0: a segment of it takes at least one cycle (R49, R154). -/
def FitsRem (n : Nat) : Prop := 0 < n ∧ n ≤ Params.maxRem

theorem FitsRem.toNat_ofNat {n : Nat} (h : FitsRem n) : (BitVec.ofNat 40 n).toNat = n := by
  have hlt : n < 2 ^ 40 := h.2.trans_lt (by decide)
  rw [BitVec.toNat_ofNat, Nat.mod_eq_of_lt hlt]

theorem FitsRem.ofNat_ne_zero {n : Nat} (h : FitsRem n) : BitVec.ofNat 40 n ≠ 0#40 := by
  intro h0
  have hn : n = 0 := by rw [← h.toNat_ofNat, h0]; rfl
  exact absurd h.1 (by omega)

theorem calCycles_fitsRem {p : Params} (h : p.InRange) : FitsRem p.calCycles.val := ⟨h.cal, h.calFits⟩

theorem State.Inv.setLength_fitsRem {s : State} (h : s.Inv) : FitsRem s.setLength :=
  ⟨h.params.set, (Nat.le_of_lt_succ s.params.setCycles.isLt).trans (by decide)⟩

theorem State.Inv.spinLength_fitsRem {s : State} (h : s.Inv) {w : Word} (hw : 1 ≤ w.toNat) : FitsRem (s.spinLength w) :=
  ⟨Nat.mul_pos hw h.params.iter,
    Nat.mul_le_mul (Nat.le_of_lt_succ w.isLt) (Nat.le_of_lt_succ s.params.iterCycles.isLt)⟩

/-! ### Calibrated states (R55 item 4) -/

theorem cdiv_pos {a b : Nat} (ha : 0 < a) (hb : 0 < b) : 1 ≤ cdiv a b :=
  (Nat.one_le_div_iff hb).2 (by omega)

/-- The latch count is a ceiling of a positive quotient (R125). -/
theorem counts_rs_pos {p : Params} {c fn fd : Nat} (hp : p.InRange) (hc : 0 < c) (hn : 0 < fn) (hd : 0 < fd) :
    1 ≤ (counts p c fn fd).rs := by
  obtain ⟨hnum, hden⟩ := tick_pos hc
  have hres : 0 < p.resUs.toNat := Nat.pos_of_ne_zero (by simpa [← BitVec.toNat_inj] using hp.res)
  exact cdiv_pos (by positivity) (by positivity)

/-- No count of a calibrated state is 0 (R55 item 4, R127). -/
theorem State.Calibrated.counts_pos {s : State} (h : s.Calibrated) (hp : s.params.InRange) :
    1 ≤ s.cntT0h.toNat ∧ 1 ≤ s.cntT0l.toNat ∧ 1 ≤ s.cntT1h.toNat ∧ 1 ≤ s.cntT1l.toNat ∧ 1 ≤ s.cntRes.toNat := by
  obtain ⟨hc, hn, hd, hz, -, -, h0, l0, h1, l1, rs⟩ := h.results
  have hrs := counts_rs_pos hp hc hn hd
  simp only [Calibration.someZero, Bool.or_eq_false_iff, beq_eq_false_iff_ne] at hz
  omega

/-- The TickFactor of a calibrated state is the reduced ratio of its clock and one second (R55 item 4, R121). -/
theorem State.Calibrated.tickFactor {s : State} (h : s.Calibrated) :
    Nat.gcd s.tfNum.toNat s.tfDen.toNat = 1 ∧ s.tfNum.toNat * 1000000000 = s.clkhz.toNat * s.tfDen.toNat := by
  obtain ⟨hc, -, -, -, num, den, -⟩ := h.results
  rw [num, den]
  refine ⟨Nat.coprime_div_gcd_div_gcd (Nat.gcd_pos_of_pos_left _ hc), ?_⟩
  calc tickNum s.clkhz.toNat * 1000000000
      = tickNum s.clkhz.toNat * (tickDen s.clkhz.toNat * Nat.gcd s.clkhz.toNat nsPerS) := by rw [tickDen_mul_gcd]
    _ = tickNum s.clkhz.toNat * Nat.gcd s.clkhz.toNat nsPerS * tickDen s.clkhz.toNat := by ring
    _ = s.clkhz.toNat * tickDen s.clkhz.toNat := by rw [tickNum_mul_gcd]

theorem State.Inv.highCount_pos {s : State} (h : s.Inv) (hl : s.lc = .ready) (b : Bool) : 1 ≤ (s.highCount b).toNat := by
  obtain ⟨h0, -, h1, -⟩ := (h.calibrated (.inr hl)).counts_pos h.params
  cases b
  · exact h0
  · exact h1

theorem State.Inv.lowCount_pos {s : State} (h : s.Inv) (hl : s.lc = .ready) (b : Bool) : 1 ≤ (s.lowCount b).toNat := by
  obtain ⟨-, l0, -, l1, -⟩ := (h.calibrated (.inr hl)).counts_pos h.params
  cases b
  · exact l0
  · exact l1

/-! ### Updates that keep the invariant -/

/-- The invariant says nothing of CONV_NS, CONV_ITERS, the response and the inputs. -/
theorem State.Inv.with_unconstrained {s : State} (h : s.Inv) (ns it : Word) (x : Option Response) (q : List HostItem)
    (sp rp : List Bool) (n : Nat) :
    State.Inv { s with
      convNs := ns, convIters := it, resp := x, host := q, stallPlan := sp, rstPlan := rp, tick := n } :=
  { h with calibrated := fun hl => (h.calibrated hl).congr (by simp) }

theorem State.Inv.spend {s : State} (h : s.Inv) : s.spend.Inv := h.with_unconstrained _ _ _ _ _ _ _

theorem State.Inv.acceptCycle {s : State} (h : s.Inv) : s.acceptCycle.Inv := h.with_unconstrained _ _ _ _ _ _ _

theorem State.Inv.idleCycle {s : State} (h : s.Inv) : s.idleCycle.Inv := h.with_unconstrained _ _ _ _ _ _ _

/-- A refusal writes a code of the table (R193). -/
theorem State.Inv.refuse {s : State} (h : s.Inv) (c : RefuseCause) : (s.refuse c).Inv :=
  { h with
    calibrated := fun hl => (h.calibrated hl).congr (by simp)
    lcode_mem := .inr ⟨c, rfl⟩ }

/-- In UNCAL the configuration is free (R42). -/
theorem State.Inv.with_config {s : State} (h : s.Inv) (hl : s.lc = .uncal) (c fn fd : Word) :
    (State.respondOk { s with clkhz := c, fudgeNum := fn, fudgeDen := fd }).Inv :=
  { h with calibrated := by simp [hl] }

/-- The lifecycle state a segment's phase stands in (R55 item 7). -/
def Phase.lifecycle : Phase → Option Lifecycle
  | .idle => none
  | .calculate => some .uncal
  | .seti => some .cald
  | .seth => some .ready
  | .spinh => some .ready
  | .setl => some .ready
  | .spinl => some .ready
  | .spinr => some .ready

/-- A busy state of the invariant is in its phase's lifecycle state (R55 item 7). -/
theorem State.Inv.lifecycle {s : State} (h : s.Inv) (hp : s.phase ≠ .idle) : s.phase.lifecycle = some s.lc := by
  cases hphase : s.phase with
  | idle => exact absurd hphase hp
  | calculate => rw [h.calc_lc hphase]; rfl
  | seti => rw [h.seti_lc hphase]; rfl
  | _ => rw [h.pulse_lc (by simp [hphase])]; rfl

/-- A segment of a length REM can hold starts in a phase that LC admits, with the pin's level of that phase (R48, R55). -/
theorem State.Inv.startSegment {s : State} (h : s.Inv) {p : Phase} {n : Nat} {l : Lifecycle} (pin cur : Bool)
    (sh : Byte) (nb : BitVec 3) (hl : s.lc = l) (hlc : p.lifecycle = some l) (hn : FitsRem n)
    (hpin : pin = true ↔ p = .spinh ∨ p = .setl) (hsh : nb ≠ 0#3 → firstBit sh = cur) :
    (State.startSegment { s with pin := pin, curbit := cur, shift := sh, nbits := nb } p n).Inv :=
  { h with
    idle_iff := iff_of_false (by rintro (rfl : p = .idle); cases hlc) hn.ofNat_ne_zero
    high_iff := hpin
    calibrated := fun hl => (h.calibrated hl).congr (by simp)
    pulse_lc := by rintro (rfl | rfl | rfl | rfl | rfl) <;> exact hl.trans (Option.some.inj hlc).symm
    seti_lc := by rintro rfl; exact hl.trans (Option.some.inj hlc).symm
    calc_lc := by rintro rfl; exact hl.trans (Option.some.inj hlc).symm
    rem_le := hn.toNat_ofNat.trans_le hn.2
    shift_cur := hsh }

/-- A set-high of a pulse command starts in READY (R156, R157). -/
theorem State.Inv.startPulses {s : State} (h : s.Inv) {b : Bool} {v : Byte} {m : BitVec 3} (hl : s.lc = .ready)
    (hpin : s.pin = false) (hb : m ≠ 0#3 → firstBit v = b) : (s.startPulses b v m).Inv :=
  h.startSegment s.pin b v m hl rfl h.setLength_fitsRem (by simp [hpin]) hb

/-- A command ends with the pin low (R154). -/
theorem State.Inv.complete {s : State} (h : s.Inv) (hpin : s.pin = false) : s.complete.Inv :=
  { h with
    idle_iff := iff_of_true rfl rfl
    high_iff := by simp [hpin]
    calibrated := fun hl => (h.calibrated hl).congr (by simp)
    pulse_lc := by simp
    seti_lc := by simp
    calc_lc := by simp
    rem_le := Nat.zero_le _ }

theorem State.Inv.pin_low {s : State} (h : s.Inv) (hp : s.phase ≠ .spinh ∧ s.phase ≠ .setl) : s.pin = false := by
  rw [← Bool.not_eq_true, h.high_iff, not_or]; exact hp

theorem State.Inv.fcode_eq_zero {s : State} (h : s.Inv) (hl : s.lc ≠ .fault) : s.fcode = 0#8 :=
  not_not.1 (mt h.fault_iff.2 hl)

theorem State.Inv.pinOe_low {s : State} (h : s.Inv) (hl : s.lc ≠ .ready) : s.pinOe = false := by
  rw [← Bool.not_eq_true, h.driven_iff]; exact hl

/-- `CAL` succeeds: CALD holds the results of the configuration (R126). -/
theorem State.Inv.calibrate {s : State} (h : s.Inv) (hp : s.phase = .calculate) {k : Calibration}
    (hk : s.calibration = .ok k) : (State.complete { s.storeResults k with lc := .cald }).Inv where
  params := h.params
  idle_iff := iff_of_true rfl rfl
  driven_iff := by simp [h.pinOe_low (by simp [h.calc_lc hp])]
  high_iff := by simp [h.pin_low (by simp [hp])]
  calibrated := fun _ => ⟨k, hk, rfl⟩
  uncalibrated := by simp
  fault_iff := by simp [h.fcode_eq_zero (by simp [h.calc_lc hp])]
  pulse_lc := by simp
  seti_lc := by simp
  calc_lc := by simp
  rem_le := Nat.zero_le _
  shift_cur := h.shift_cur
  fcode_mem := h.fcode_mem
  lcode_mem := h.lcode_mem

/-- `CAL` fails: FAULT keeps the results 0 and holds the cause (R191). -/
theorem State.Inv.fatal {s : State} (h : s.Inv) (hp : s.phase = .calculate) (c : FatalCause) : (s.fatal c).Inv where
  params := h.params
  idle_iff := iff_of_true rfl rfl
  driven_iff := by simp [h.pinOe_low (by simp [h.calc_lc hp])]
  high_iff := by simp [h.pin_low (by simp [hp])]
  calibrated := by simp
  uncalibrated := fun _ => h.uncalibrated (.inl (h.calc_lc hp))
  fault_iff := by simp [c.code_ne_zero]
  pulse_lc := by simp
  seti_lc := by simp
  calc_lc := by simp
  rem_le := Nat.zero_le _
  shift_cur := h.shift_cur
  fcode_mem := .inr ⟨c, rfl⟩
  lcode_mem := h.lcode_mem

/-- `INIT` completes: READY drives the line low (R155). -/
theorem State.Inv.init {s : State} (h : s.Inv) (hp : s.phase = .seti) :
    (State.complete { s with pin := false, pinOe := true, lc := .ready }).Inv where
  params := h.params
  idle_iff := iff_of_true rfl rfl
  driven_iff := by simp
  high_iff := by simp
  calibrated := fun _ => (h.calibrated (.inl (h.seti_lc hp))).congr (by simp)
  uncalibrated := by simp
  fault_iff := by simp [h.fcode_eq_zero (by simp [h.seti_lc hp])]
  pulse_lc := by simp
  seti_lc := by simp
  calc_lc := by simp
  rem_le := Nat.zero_le _
  shift_cur := h.shift_cur
  fcode_mem := h.fcode_mem
  lcode_mem := h.lcode_mem

/-- REM counts down to 1 inside a segment (R153). -/
theorem State.Inv.count {s : State} (h : s.Inv) (hp : s.phase ≠ .idle) (hrem : 1#40 < s.rem) :
    State.Inv { s with rem := s.rem - 1#40 } :=
  { h with
    idle_iff := iff_of_false hp (by bv_omega)
    calibrated := fun hl => (h.calibrated hl).congr (by simp)
    rem_le := by
      have hle := h.rem_le
      show (s.rem - 1#40).toNat ≤ _
      bv_omega }

/-- Reset states satisfy the invariant (R55, R56). -/
theorem State.inReset_inv {s : State} (hp : s.params.InRange) : s.inReset.Inv where
  params := hp
  idle_iff := by simp
  driven_iff := by simp
  high_iff := by simp
  calibrated := by simp
  uncalibrated := by simp
  fault_iff := by simp
  pulse_lc := by simp
  seti_lc := by simp
  calc_lc := by simp
  rem_le := Nat.zero_le _
  shift_cur := by simp
  fcode_mem := .inl rfl
  lcode_mem := .inl rfl

/-! ### Every cycle keeps the invariant (R55) -/

/-- A transaction accepted in IDLE keeps the invariant. -/
theorem ExecTo.inv {i : Instr} {s t : State} (he : ExecTo i s t) (h : s.Inv) (hp : s.phase = .idle) : t.Inv := by
  have hpin : s.pin = false := h.pin_low (by simp [hp])
  cases he with
  | refuse c => exact h.refuse c
  | read off r => exact h.with_unconstrained _ _ _ _ _ _ _
  | clkhz d hl => exact h.with_config hl d s.fudgeNum s.fudgeDen
  | fudgeNum d hl => exact h.with_config hl s.clkhz d s.fudgeDen
  | fudgeDen d hl => exact h.with_config hl s.clkhz s.fudgeNum d
  | convNs d => exact h.with_unconstrained _ _ _ _ _ _ _
  | conv d => exact h.with_unconstrained _ _ _ _ _ _ _
  | calculate hl =>
    exact h.startSegment s.pin s.curbit s.shift s.nbits hl rfl (calCycles_fitsRem h.params) (by simp [hpin])
      h.shift_cur
  | seti hl =>
    exact h.startSegment s.pin s.curbit s.shift s.nbits hl rfl h.setLength_fitsRem (by simp [hpin])
      h.shift_cur
  | pulses b v m hl hb => exact h.startPulses hl hpin hb
  | latch hl =>
    obtain ⟨-, -, -, -, hrs⟩ := (h.calibrated (.inr hl)).counts_pos h.params
    exact h.startSegment s.pin s.curbit s.shift s.nbits hl rfl (h.spinLength_fitsRem hrs) (by simp [hpin])
      h.shift_cur

/-- The end of a segment keeps the invariant. -/
theorem SegmentEndTo.inv {s t : State} (he : SegmentEndTo s t) (h : s.Inv) : t.Inv := by
  cases he with
  | idle => exact h
  | calibrated k hp hk => exact h.calibrate hp hk
  | fatal c hp => exact h.fatal hp c
  | init hp => exact h.init hp
  | high hp =>
    have hl : s.lc = .ready := h.pulse_lc (by simp [hp])
    exact h.startSegment true s.curbit s.shift s.nbits hl rfl
      (h.spinLength_fitsRem (h.highCount_pos hl s.curbit)) (by simp) h.shift_cur
  | setLow hp =>
    have hl : s.lc = .ready := h.pulse_lc (by simp [hp])
    exact h.startSegment s.pin s.curbit s.shift s.nbits hl rfl h.setLength_fitsRem (by simp [h.high_iff, hp])
      h.shift_cur
  | low hp =>
    have hl : s.lc = .ready := h.pulse_lc (by simp [hp])
    exact h.startSegment false s.curbit s.shift s.nbits hl rfl
      (h.spinLength_fitsRem (h.lowCount_pos hl s.curbit)) (by simp) h.shift_cur
  | last hp => exact h.complete (h.pin_low (by simp [hp]))
  | next hp => exact h.startPulses (h.pulse_lc (by simp [hp])) (h.pin_low (by simp [hp])) fun _ => rfl
  | latched hp => exact h.complete (h.pin_low (by simp [hp]))

/-- Every cycle keeps the invariant, by the cases of R153 and R220. -/
theorem step_inv {s t : State} (h : s.Inv) (hs : step s = .next t) : t.Inv := by
  rcases step_cases hs with
    ⟨-, rfl⟩ | ⟨-, -, -, rfl⟩ | ⟨-, hp, r, rest, i, -, -, he⟩ | ⟨-, -, -, rfl⟩ | ⟨-, hp, -, rfl⟩
  · exact State.inReset_inv h.params
  · exact h.idleCycle
  · exact (exec_cases he).inv h.acceptCycle hp
  · exact h.spend
  · rcases busyCycle_cases s.spend with ⟨hrem, he⟩ | ⟨-, he⟩ <;> rw [he]
    · exact h.spend.count hp hrem
    · exact (segmentEnd_cases _).inv h.spend

/-- The invariant holds all along a run. -/
theorem runFor_inv {n : Nat} {s t : State} (h : s.Inv) (hrun : runFor n s = .next t) : t.Inv := by
  induction n generalizing s with
  | zero => cases hrun; exact h
  | succ n ih =>
    obtain ⟨u, hu, hrest⟩ := runFor_split (Nat.add_comm n 1 ▸ hrun)
    exact ih (step_inv h (runFor_one s ▸ hu)) hrest

/-- The invariant holds in every reachable state. -/
theorem Reachable.inv {s : State} (h : Reachable s) : s.Inv := by
  induction h with
  | start s hp => exact State.inReset_inv hp
  | cycle s t _ hs ih => exact step_inv ih hs

/-- The invariant gives the seven items of R55. -/
theorem State.Inv.r55 {s : State} (h : s.Inv) : s.R55 where
  idle_iff := h.idle_iff
  driven_iff := h.driven_iff
  high_only := h.high_iff.1
  calibrated := fun hl => by
    have hcal := h.calibrated hl
    obtain ⟨hc, hn, hd, -⟩ := hcal.results
    obtain ⟨hgcd, hratio⟩ := hcal.tickFactor
    exact ⟨hc, hn, hd, hgcd, hratio, hcal.counts_pos h.params⟩
  uncalibrated := h.uncalibrated
  fault_iff := h.fault_iff
  phase_lc := ⟨h.pulse_lc, h.seti_lc, h.calc_lc⟩

/-- Settles O38, by one lemma per transaction and per segment end. -/
theorem stepKeepsTheInvariant : Obligations.StepKeepsTheInvariant := fun _ _ h hs => step_inv h hs

/-- Settles O39, by the invariant of O38 along the run. -/
theorem reachableStatesSatisfyR55 : Obligations.ReachableStatesSatisfyR55 := fun _ h => h.inv.r55

/-! ### What moves configuration, lifecycle, pin and error codes -/

/-- Outside UNCAL the configuration registers stand until reset (R42). -/
theorem step_sameConfig {s t : State} (h : step s = .next t) (hr : s.rstAt 0 = false) (hl : s.lc ≠ .uncal) :
    s.SameConfig t := by
  rcases step_cases_of_noReset h hr with ⟨q, r, rfl⟩ | ⟨-, i, he⟩ | ⟨-, -, -, he⟩
  · exact ⟨rfl, rfl, rfl⟩
  · exact he.sameConfig hl
  · obtain ⟨-, hsame, -⟩ := he.frame
    exact hsame

theorem step_params {s t : State} (h : step s = .next t) (hr : s.rstAt 0 = false) : t.params = s.params := by
  rcases step_cases_of_noReset h hr with ⟨q, r, rfl⟩ | ⟨-, i, he⟩ | ⟨-, -, -, he⟩
  · rfl
  · exact he.frame.1
  · exact he.frame.1

/-- The results change only where a CALC segment ends in CALD (R42, R126). -/
theorem step_sameResults {s t : State} (h : step s = .next t) (hr : s.rstAt 0 = false) :
    s.SameResults t ∨ (s.phase = .calculate ∧ t.lc = .cald) := by
  rcases step_cases_of_noReset h hr with ⟨q, r, rfl⟩ | ⟨-, i, he⟩ | ⟨-, -, -, he⟩
  · exact .inl ⟨rfl, rfl, rfl, rfl, rfl, rfl, rfl⟩
  · obtain ⟨-, hsame, -⟩ := he.frame
    exact .inl hsame
  · exact he.sameResults

/-- Settles O41: the one cycle that writes results starts in UNCAL and leaves it. -/
theorem configurationIsFrozen : Obligations.ConfigurationIsFrozen := by
  intro s t h hr
  refine ⟨step_params h hr, step_sameConfig h hr, fun hinv hl => ?_⟩
  rcases step_sameResults h hr with hsame | ⟨hp, ht⟩
  · exact hsame
  · have hs := hinv.calc_lc hp
    simp [hs, ht] at hl

/-- Settles O42: LC moves at the ends of CALC and SETI, whose lifecycle states the invariant gives. -/
theorem lifecycleMovesOnlyByItsTable : Obligations.LifecycleMovesOnlyByItsTable := by
  intro s t hinv h
  refine ⟨fun hr => ?_, fun hr => ?_⟩
  · rw [step_of_reset hr] at h; cases h; rfl
  · rcases step_cases_of_noReset h hr with ⟨q, r, rfl⟩ | ⟨-, i, he⟩ | ⟨-, -, -, he⟩
    · exact .inl rfl
    · obtain ⟨-, -, hlc, -⟩ := he.frame
      exact .inl hlc
    · rcases he.lc with hlc | ⟨hp, hmove⟩ | ⟨hp, hmove⟩
      · exact .inl hlc
      · exact .inr (.inl ⟨hinv.calc_lc hp, hp, hmove⟩)
      · exact .inr (.inr ⟨hinv.seti_lc hp, hp, hmove⟩)

/-- Settles O44: transactions and counting cycles keep the pin, and `SegmentEndTo.pin` says which segment ends do not. -/
theorem onlySetSegmentsMoveThePin : Obligations.OnlySetSegmentsMoveThePin := by
  intro s t h hr
  rcases step_cases_of_noReset h hr with ⟨q, r, rfl⟩ | ⟨-, i, he⟩ | ⟨-, hstall, hrem, he⟩
  · simp
  · obtain ⟨-, -, -, hpin, hoe, -⟩ := he.frame
    exact ⟨hoe.trans, fun hm => absurd hm (by simp [hpin, hoe])⟩
  · obtain ⟨hstays, hmoves⟩ := he.pin
    exact ⟨hstays, fun hm => ⟨hstall, hrem, hmoves hm⟩⟩

/-- Settles O45: FCODE is written by a failing `CAL`, from UNCAL, where it is 0; LCODE by refusals. -/
theorem errorCodesRecordErrorsOnly : Obligations.ErrorCodesRecordErrorsOnly := by
  intro s t hinv h hr
  rcases step_cases_of_noReset h hr with ⟨q, r, rfl⟩ | ⟨hp, i, he⟩ | ⟨-, -, -, he⟩
  · simp
  · obtain ⟨-, -, -, -, -, hf⟩ := he.frame
    exact ⟨fun hne => absurd hf hne, fun hne => ⟨hp, he.lcode.resolve_left hne⟩⟩
  · obtain ⟨-, -, hl⟩ := he.frame
    refine ⟨fun hne => ?_, fun hne => absurd hl hne⟩
    obtain ⟨hp, hlc, hresp⟩ := he.fcode.resolve_left hne
    exact ⟨hp, hlc, hresp, hinv.fcode_eq_zero (by simp [hinv.calc_lc hp])⟩

/-! ### Reset (R56) and the line (R51) -/

@[simp] theorem State.inReset_rstAt (s : State) (k : Nat) : s.inReset.rstAt k = s.rstAt k := State.rstAt_congr rfl rfl k

/-- STATUS and ERR read 0 after reset (R56). -/
@[simp] theorem State.inReset_statusWord (s : State) : s.inReset.statusWord = 0#32 := by
  simp [State.statusWord, Lifecycle.code]

@[simp] theorem State.inReset_errWord (s : State) : s.inReset.errWord = 0#32 := by simp [State.errWord]

/-- The block's own parameters are in the ranges of R8. -/
theorem configParams_inRange : Config.params.InRange := by
  have word_ne_zero : ∀ n : Fin 4294967295, BitVec.ofNat 32 (n.val + 1) ≠ 0#32 := by
    intro n; have := n.isLt; bv_omega
  exact {
    t0h := word_ne_zero _
    t0l := word_ne_zero _
    t1h := word_ne_zero _
    t1l := word_ne_zero _
    res := word_ne_zero _
    set := Nat.succ_pos _
    iter := Nat.succ_pos _
    cal := Nat.succ_pos _
    calFits := Config.calCyclesPred.isLt
    fTrue := Nat.succ_pos _
    fTrueDen := Nat.succ_pos _ }

/-- The outputs that R56 names, while `rst = 1`. -/
theorem State.outputs_in_reset {s : State} (hr : s.rstAt 0 = true) :
    s.outputs.reqReady = false ∧ s.outputs.respValid = false ∧ s.outputs.pin = false ∧ s.outputs.pinOe = false ∧
      s.outputs.np = false := by
  simp [State.reqReady, State.visible_of_reset hr, hr, Phase.np]

/-- The outputs that R56 names, in the first cycle after reset. -/
theorem State.outputs_after_reset {s : State} (hr : s.rstAt 0 = false) :
    s.inReset.outputs.reqReady = true ∧ s.inReset.outputs.respValid = false ∧ s.inReset.outputs.pin = false ∧
      s.inReset.outputs.pinOe = false ∧ s.inReset.outputs.np = false := by
  have hv : s.inReset.visible = s.inReset := State.visible_eq (by simpa using hr)
  simp [State.reqReady, hv, hr, Phase.np]

/-- Settles O1: row by row, the fields of the reset state; then the outputs in and after reset. -/
theorem resetStateIsTheResetTable : Obligations.ResetStateIsTheResetTable :=
  ⟨rfl, fun s => ⟨rfl, s.inReset_statusWord, s.inReset_errWord, rfl, rfl, rfl, rfl, rfl, rfl, rfl, rfl, rfl, rfl, rfl, rfl,
    rfl, rfl, rfl, rfl, rfl, rfl, rfl, rfl, rfl, rfl, rfl, rfl, rfl, rfl, rfl, rfl, State.outputs_in_reset,
    State.outputs_after_reset⟩⟩

/-- Settles O37. -/
theorem resetStateSatisfiesTheInvariant : Obligations.ResetStateSatisfiesTheInvariant :=
  ⟨fun _ hp => State.inReset_inv hp, configParams_inRange, State.inReset_inv (s := State.reset) configParams_inRange⟩

/-- Settles O56: a driven line that nobody contests shows PIN (`State.line_of_driven`). -/
theorem drivenLineFollowsThePin : Obligations.DrivenLineFollowsThePin := by
  intro s t contested n k hsole hk _ hr hoe
  rw [hsole k hk]
  exact State.line_of_driven hr hoe

end Sys2Proof.Machine
end

section
/-! PROOFS. The register file on the port: the offsets that name no register (R64, R67), and the lane order a byte-addressed
bridge sees (R62). -/

namespace Sys2Proof.Machine

/-! ### Offsets that name no register -/

/-- An offset with no register is refused to a read (R101). -/
theorem exec_rd_of_regAt_none {off : Offset} (h : regAt off = none) (s : State) :
    exec (.rd off) s = .next (s.refuse .badOffset) := by
  simp only [exec, execRd, h]

/-- An offset with no register is refused to a write before the data is looked at (R102). -/
theorem exec_wr_of_regAt_none {off : Offset} (h : regAt off = none) (data : Word) (s : State) :
    exec (.wr off data) s = .next (s.refuse .badOffset) := by
  simp only [exec, execWr, h]

/-- Settles O14: the misaligned and the high offsets are those without a register, and both transactions refuse them. -/
theorem badOffsetsAreRefused : Obligations.BadOffsetsAreRefused := by
  intro s off data hbad
  have hnone : regAt off = none := (regAt_eq_none_iff off).2 (hbad.imp_right (by omega))
  exact ⟨exec_rd_of_regAt_none hnone s, exec_wr_of_regAt_none hnone data s⟩

/-! ### Lane order -/

/-- Settles O51: each byte starts where the one below it ends, so three joins leave the whole word. -/
theorem bridgedBytesAreLittleEndian : Obligations.BridgedBytesAreLittleEndian := by
  intro s r
  unfold State.bridgeByte
  rw [BitVec.extractLsb'_append_extractLsb'_eq_extractLsb' (by rfl),
    BitVec.extractLsb'_append_extractLsb'_eq_extractLsb' (by rfl),
    BitVec.extractLsb'_append_extractLsb'_eq_extractLsb' (by rfl)]
  exact BitVec.extractLsb'_eq_self

end Sys2Proof.Machine
end

section
/-! PROOFS. Records and command words: the decoder and the encoder undo each other (R81 to R84), the opcode map's mask and
match rows are the decoder's field checks (R84, R103), the illegal words are R85's list, and only a malformed record stops a
machine of the invariant (R81, R129). -/

namespace Sys2Proof

/-! ### Records (R81) -/

theorem Record.zeroField_eq_zero_iff (r : Record) : Record.zeroField r = 0#7 ↔ r.toNat / 2 ^ 41 = 0 := by
  rw [← BitVec.toNat_inj, Record.zeroField_toNat]; rfl

theorem Record.data_eq_zero_iff (r : Record) : Record.data r = 0#32 ↔ r.toNat % 2 ^ 32 = 0 := by
  rw [← BitVec.toNat_inj, Record.data_toNat]; rfl

/-- A record with bits 47:41 clear and bit 40 set is the `WR` record of its offset and data. -/
theorem eq_writeRecord {r : Record} (h : r.toNat / 2 ^ 40 = 1) :
    r = writeRecord (BitVec.ofNat 8 (r.toNat / 2 ^ 32)) (BitVec.ofNat 32 r.toNat) := by
  apply BitVec.eq_of_toNat_eq
  rw [writeRecord_toNat, BitVec.toNat_ofNat, BitVec.toNat_ofNat]
  omega

/-- A record with bits 47:40 and the data clear is the `RD` record of its offset. -/
theorem eq_readRecord {r : Record} (h : r.toNat / 2 ^ 40 = 0) (hd : r.toNat % 2 ^ 32 = 0) :
    r = readRecord (BitVec.ofNat 8 (r.toNat / 2 ^ 32)) := by
  apply BitVec.eq_of_toNat_eq
  rw [readRecord_toNat, BitVec.toNat_ofNat]
  omega

theorem decode_writeRecord (off : Offset) (data : Word) : decode (writeRecord off data) = .ok (decodeWrite off data) := by
  obtain ⟨hz, hw, ho, hd⟩ := Laws.RecordShape.writeRecord_fields off data
  simp [decode, hz, hw, ho, hd]

theorem decode_readRecord (off : Offset) : decode (readRecord off) = .ok (.rd off) := by
  obtain ⟨hz, hw, ho, hd⟩ := Laws.RecordShape.readRecord_fields off
  simp [decode, hz, hw, ho, hd]

theorem decode_of_zeroFieldSet {r : Record} (h : r.toNat / 2 ^ 41 ≠ 0) : decode r = .error .zeroFieldSet := by
  have hz : Record.zeroField r ≠ 0#7 := mt (Record.zeroField_eq_zero_iff r).1 h
  simp [decode, hz]

theorem decode_of_readWithData {r : Record} (h : r.toNat / 2 ^ 40 = 0) (hd : r.toNat % 2 ^ 32 ≠ 0) :
    decode r = .error .readWithData := by
  have hz : Record.zeroField r = 0#7 := (Record.zeroField_eq_zero_iff r).2 (by omega)
  have hw : Record.isWrite r = false := by
    rw [Record.isWrite_eq, h]; rfl
  have hdata : Record.data r ≠ 0#32 := mt (Record.data_eq_zero_iff r).1 hd
  simp [decode, hz, hw, hdata]

theorem decode_of_read {r : Record} (h : r.toNat / 2 ^ 40 = 0) (hd : r.toNat % 2 ^ 32 = 0) :
    decode r = .ok (.rd (BitVec.ofNat 8 (r.toNat / 2 ^ 32))) :=
  (congrArg decode (eq_readRecord h hd)).trans (decode_readRecord _)

theorem decode_of_write {r : Record} (h : r.toNat / 2 ^ 40 = 1) :
    decode r = .ok (decodeWrite (BitVec.ofNat 8 (r.toNat / 2 ^ 32)) (BitVec.ofNat 32 r.toNat)) :=
  (congrArg decode (eq_writeRecord h)).trans (decode_writeRecord _ _)

/-- A record that is a transaction is a `WR` or a `RD` record (R81). -/
theorem decode_ok_cases {r : Record} {i : Instr} (h : decode r = .ok i) :
    (∃ off data, r = writeRecord off data ∧ i = decodeWrite off data) ∨ ∃ off, r = readRecord off ∧ i = .rd off := by
  by_cases hz : r.toNat / 2 ^ 41 = 0
  · by_cases hw : r.toNat / 2 ^ 40 = 0
    · by_cases hd : r.toNat % 2 ^ 32 = 0
      · rw [decode_of_read hw hd] at h; cases h
        exact .inr ⟨_, eq_readRecord hw hd, rfl⟩
      · rw [decode_of_readWithData hw hd] at h; cases h
    · have hw1 : r.toNat / 2 ^ 40 = 1 := by omega
      rw [decode_of_write hw1] at h; cases h
      exact .inl ⟨_, _, eq_writeRecord hw1, rfl⟩
  · rw [decode_of_zeroFieldSet hz] at h; cases h

/-! ### Command words (R82 to R84) -/

/-- The word of each command, the format C rows of R84 with their operands. -/
inductive CommandOf : Word → Instr → Prop where
  | cal : CommandOf (commandWord 0x01#8 0#8) .cal
  | init : CommandOf (commandWord 0x02#8 0#8) .init
  | conv : CommandOf (commandWord 0x03#8 0#8) .conv
  | bit (b : Bool) : CommandOf (commandWord 0x10#8 (0#7 ++ BitVec.ofBool b)) (.bit b)
  | byte (v : Byte) : CommandOf (commandWord 0x11#8 v) (.byte v)
  | latch : CommandOf (commandWord 0x12#8 0#8) .latch

theorem CommandOf.encode_eq {w : Word} {i : Instr} (h : CommandOf w i) : encode i = writeRecord 0#8 w := by
  cases h <;> rfl

theorem CommandOf.wellFormed {w : Word} {i : Instr} (h : CommandOf w i) : i.wellFormed = true := by
  cases h <;> rfl

theorem commandWord_fields (op imm8 : BitVec 8) :
    Word.op (commandWord op imm8) = op ∧ Word.rsv (commandWord op imm8) = 0#16 ∧
      Word.imm8 (commandWord op imm8) = imm8 := by
  have hi := imm8.isLt
  refine ⟨BitVec.eq_of_toNat_eq ?_, BitVec.eq_of_toNat_eq ?_, BitVec.eq_of_toNat_eq ?_⟩
  · rw [Word.op_toNat, commandWord_toNat]; omega
  · rw [Word.rsv_toNat, commandWord_toNat, BitVec.toNat_ofNat]; omega
  · rw [Word.imm8_toNat, commandWord_toNat]; omega

/-- With the reserved bits clear, the fields `op` and `imm8` are the whole word (R82). -/
theorem eq_commandWord {w : Word} (h : Word.rsv w = 0#16) : w = commandWord (Word.op w) (Word.imm8 w) := by
  have hr : w.toNat / 2 ^ 8 % 2 ^ 16 = 0 := by rw [← Word.rsv_toNat, h]; rfl
  apply BitVec.eq_of_toNat_eq
  rw [commandWord_toNat, Word.op_toNat, Word.imm8_toNat]
  omega

/-- An `imm8` with bits 7:1 clear is a single bit (R83). -/
theorem exists_eq_append_ofBool {v : Byte} (h : v.extractLsb' 1 7 = 0#7) : ∃ b, v = 0#7 ++ BitVec.ofBool b := by
  revert v; decide

theorem CommandOf.decodeCommand_eq {w : Word} {i : Instr} (h : CommandOf w i) : decodeCommand w = some i := by
  cases h with
  | cal => decide
  | init => decide
  | conv => decide
  | bit b => cases b <;> decide
  | byte v =>
    obtain ⟨hop, hrsv, himm⟩ := commandWord_fields 0x11#8 v
    simp [decodeCommand, hop, hrsv, himm]
  | latch => decide

theorem CommandOf.of_decodeCommand {w : Word} {i : Instr} (h : decodeCommand w = some i) : CommandOf w i := by
  by_cases hrsv : Word.rsv w = 0#16
  · obtain ⟨op, v, rfl⟩ : ∃ op v, w = commandWord op v := ⟨_, _, eq_commandWord hrsv⟩
    obtain ⟨hop, -, himm⟩ := commandWord_fields op v
    rw [decodeCommand, if_neg (not_not_intro hrsv), hop, himm] at h
    split_ifs at h with hbyte hbit hhigh hv hcal hinit hconv hlatch <;> cases h
    · subst hbyte; exact .byte v
    · subst hbit
      obtain ⟨b, rfl⟩ := exists_eq_append_ofBool (not_ne_iff.1 hhigh)
      cases b
      · exact .bit false
      · exact .bit true
    all_goals obtain rfl := not_ne_iff.1 hv
    · subst hcal; exact .cal
    · subst hinit; exact .init
    · subst hconv; exact .conv
    · subst hlatch; exact .latch
  · rw [decodeCommand, if_pos hrsv] at h; cases h

/-- The decoder reads the command words and no others (R84, R85). -/
theorem decodeCommand_eq_some_iff {w : Word} {i : Instr} : decodeCommand w = some i ↔ CommandOf w i :=
  ⟨CommandOf.of_decodeCommand, CommandOf.decodeCommand_eq⟩

/-! ### The rows of the opcode map (R84) -/

/-- A row whose mask leaves out the low `n` bits covers the words that agree with its value above them. -/
theorem CommandRow.covers_iff_div {r : CommandRow} {n k : Nat} (hm : r.mask = BitVec.allOnes 32 <<< n)
    (hv : r.value.toNat = k * 2 ^ n) (w : Word) : r.covers w = true ↔ w.toNat / 2 ^ n = k := by
  have hlt : w.toNat / 2 ^ n * 2 ^ n < 2 ^ 32 := (Nat.div_mul_le_self _ _).trans_lt w.isLt
  rw [CommandRow.covers, beq_iff_eq, hm, ← BitVec.shiftLeft_ushiftRight, ← BitVec.toNat_inj, BitVec.toNat_shiftLeft,
    BitVec.toNat_ushiftRight, Nat.shiftRight_eq_div_pow, Nat.shiftLeft_eq, Nat.mod_eq_of_lt hlt, hv]
  exact Nat.mul_left_inj (by positivity)

/-- The words the six rows cover, as numbers. -/
theorem isCommandWord_iff_toNat (w : Word) :
    isCommandWord w = true ↔
      w.toNat = 0x01000000 ∨ w.toNat = 0x02000000 ∨ w.toNat = 0x03000000 ∨ w.toNat / 2 = 0x08000000 ∨
      w.toNat / 2 ^ 8 = 0x110000 ∨ w.toNat = 0x12000000 := by
  simp only [isCommandWord, commandRows, List.any_cons, List.any_nil, Bool.or_eq_true, Bool.false_eq_true, or_false]
  rw [CommandRow.covers_iff_div (n := 0) (k := 0x01000000) rfl rfl,
    CommandRow.covers_iff_div (n := 0) (k := 0x02000000) rfl rfl,
    CommandRow.covers_iff_div (n := 0) (k := 0x03000000) rfl rfl,
    CommandRow.covers_iff_div (n := 1) (k := 0x08000000) rfl rfl,
    CommandRow.covers_iff_div (n := 8) (k := 0x110000) rfl rfl,
    CommandRow.covers_iff_div (n := 0) (k := 0x12000000) rfl rfl]
  simp only [Nat.pow_zero, Nat.div_one, Nat.pow_one]

theorem CommandOf.of_toNat_eq {v w : Word} {i : Instr} (h : CommandOf v i) (hw : w.toNat = v.toNat) : CommandOf w i :=
  BitVec.eq_of_toNat_eq hw ▸ h

/-- The rows cover the command words and no others. -/
theorem isCommandWord_iff_command (w : Word) : isCommandWord w = true ↔ ∃ i, CommandOf w i := by
  rw [isCommandWord_iff_toNat]
  constructor
  · rintro (h | h | h | h | h | h)
    · exact ⟨_, CommandOf.cal.of_toNat_eq h⟩
    · exact ⟨_, CommandOf.init.of_toNat_eq h⟩
    · exact ⟨_, CommandOf.conv.of_toNat_eq h⟩
    · obtain h0 | h1 : w.toNat = 0x10000000 ∨ w.toNat = 0x10000001 := by omega
      · exact ⟨_, (CommandOf.bit false).of_toNat_eq h0⟩
      · exact ⟨_, (CommandOf.bit true).of_toNat_eq h1⟩
    · refine ⟨_, (CommandOf.byte (BitVec.ofNat 8 w.toNat)).of_toNat_eq ?_⟩
      rw [commandWord_toNat, BitVec.toNat_ofNat, BitVec.toNat_ofNat]; omega
    · exact ⟨_, CommandOf.latch.of_toNat_eq h⟩
  · rintro ⟨i, h⟩
    cases h with
    | bit b => cases b <;> decide
    | byte v => have := v.isLt; rw [commandWord_toNat, BitVec.toNat_ofNat]; omega
    | _ => decide

/-- The decoder's field checks single out the words of the rows (R84, R103). -/
theorem decodeCommand_isSome (w : Word) : (decodeCommand w).isSome = isCommandWord w := by
  rw [Bool.eq_iff_iff, Option.isSome_iff_exists, isCommandWord_iff_command]
  exact exists_congr fun _ => decodeCommand_eq_some_iff

theorem decodeCommand_eq_none_iff (w : Word) : decodeCommand w = none ↔ isCommandWord w = false := by
  rw [← decodeCommand_isSome, Option.isSome_eq_false_iff, Option.isNone_iff_eq_none]

/-- A row fixes the field `op` of the words it covers. -/
theorem CommandRow.op_of_covers {r : CommandRow} (hr : r ∈ commandRows) {w : Word} (h : r.covers w = true) :
    Word.op w = Word.op r.value := by
  have hmask : ∀ r ∈ commandRows, Word.op r.mask = BitVec.allOnes 8 := by decide
  rw [← beq_iff_eq.1 h, Word.op, Word.op, BitVec.extractLsb'_and]
  change _ = _ &&& Word.op r.mask
  rw [hmask r hr, BitVec.and_allOnes]

/-- No two rows have the same `op`. -/
theorem commandRows_op_ne : commandRows.Pairwise (fun a b => Word.op a.value ≠ Word.op b.value) := by decide

/-- Settles O8: the rows and the decoder read the same words, and the rows differ in the field `op`. -/
theorem opcodeMapAgreesWithDecoder : Obligations.OpcodeMapAgreesWithDecoder :=
  ⟨decodeCommand_isSome, commandRows_op_ne.imp_of_mem fun ha hb hne _ ⟨hcovera, hcoverb⟩ =>
    hne ((CommandRow.op_of_covers ha hcovera).symm.trans (CommandRow.op_of_covers hb hcoverb))⟩

/-! ### Decoding and encoding undo each other (R81 to R84) -/

theorem decodeWrite_of_command {w : Word} {i : Instr} (h : CommandOf w i) : decodeWrite 0#8 w = i := by
  simp [decodeWrite, h.decodeCommand_eq]

theorem decodeWrite_of_ne {off : Offset} (h : off ≠ 0#8) (data : Word) : decodeWrite off data = .wr off data := by
  simp [decodeWrite, h]

theorem decodeWrite_of_illegal {w : Word} (h : isCommandWord w = false) : decodeWrite 0#8 w = .wr 0#8 w := by
  simp [decodeWrite, (decodeCommand_eq_none_iff w).2 h]

theorem CommandOf.decode_encode {w : Word} {i : Instr} (h : CommandOf w i) : decode (encode i) = .ok i := by
  rw [h.encode_eq, decode_writeRecord, decodeWrite_of_command h]

theorem decode_encode {i : Instr} (hi : i.wellFormed = true) : decode (encode i) = .ok i := by
  cases i with
  | rd off => exact decode_readRecord off
  | wr off data =>
    rw [encode, decode_writeRecord]
    by_cases hoff : off = 0#8
    · subst hoff
      rw [decodeWrite_of_illegal (by simpa [Instr.wellFormed] using hi)]
    · rw [decodeWrite_of_ne hoff]
  | cal => exact CommandOf.cal.decode_encode
  | init => exact CommandOf.init.decode_encode
  | conv => exact CommandOf.conv.decode_encode
  | bit b => exact (CommandOf.bit b).decode_encode
  | byte v => exact (CommandOf.byte v).decode_encode
  | latch => exact CommandOf.latch.decode_encode

/-- Settles O4, constructor by constructor: a command through its word, a generic `WR` because no row covers its word. -/
theorem decodeOfEncode : Obligations.DecodeOfEncode := fun _ hi => decode_encode hi

/-- The operation of a `WR` record is well formed and encodes to that record (R84). -/
theorem encode_decodeWrite (off : Offset) (data : Word) :
    encode (decodeWrite off data) = writeRecord off data ∧ (decodeWrite off data).wellFormed = true := by
  by_cases hoff : off = 0#8
  · subst hoff
    cases hd : isCommandWord data with
    | true =>
      obtain ⟨i, h⟩ := (isCommandWord_iff_command data).1 hd
      rw [decodeWrite_of_command h]
      exact ⟨h.encode_eq, h.wellFormed⟩
    | false =>
      rw [decodeWrite_of_illegal hd]
      exact ⟨rfl, by simp [Instr.wellFormed, hd]⟩
  · rw [decodeWrite_of_ne hoff]
    exact ⟨rfl, by simp [Instr.wellFormed, hoff]⟩

/-- Settles O5: a record that decodes is a `RD` or a `WR` record, and its operation encodes to it. -/
theorem encodeOfDecode : Obligations.EncodeOfDecode := by
  intro r i h
  obtain ⟨off, data, rfl, rfl⟩ | ⟨off, rfl, rfl⟩ := decode_ok_cases h
  · exact encode_decodeWrite off data
  · exact ⟨rfl, rfl⟩

/-- Settles O3. -/
theorem specWordsDecodeAsWritten : Obligations.SpecWordsDecodeAsWritten := by
  unfold Obligations.SpecWordsDecodeAsWritten; decide

end Sys2Proof

namespace Sys2Proof.Machine

/-! ### The record format (R81, R84) -/

/-- Settles O6: each range of the record's number has its lemma; a `WR` is then split by its offset. -/
theorem recordFormat : Obligations.RecordFormat := by
  refine ⟨fun r => ⟨decode_of_zeroFieldSet, decode_of_readWithData, decode_of_read, fun hw hoff => ?_, fun hw hoff => ?_⟩,
    fun s r rest e hp hr hh hd => step_of_malformed hr hp hh hd⟩
  · have hne : BitVec.ofNat 8 (r.toNat / 2 ^ 32) ≠ 0#8 := by simpa [← BitVec.toNat_inj] using hoff
    rw [decode_of_write hw, decodeWrite_of_ne hne]
  · have hzero : BitVec.ofNat 8 (r.toNat / 2 ^ 32) = 0#8 := by simpa [← BitVec.toNat_inj] using hoff
    rw [decode_of_write hw, hzero, decodeWrite, if_pos rfl]

/-! ### Illegal command words (R85) -/

/-- R85's list of illegal words is what the rows of R84 leave out. -/
theorem illegal_fields_iff (w : Word) :
    (w.toNat / 2 ^ 24 ∉ [0x01, 0x02, 0x03, 0x10, 0x11, 0x12] ∨ w.toNat / 2 ^ 8 % 2 ^ 16 ≠ 0 ∨
      (w.toNat / 2 ^ 24 ∈ [0x01, 0x02, 0x03, 0x12] ∧ w.toNat % 2 ^ 8 ≠ 0) ∨
      (w.toNat / 2 ^ 24 = 0x10 ∧ 2 ≤ w.toNat % 2 ^ 8)) ↔ isCommandWord w = false := by
  rw [← Bool.not_eq_true, isCommandWord_iff_toNat]
  simp only [List.mem_cons, List.not_mem_nil, or_false]
  omega

/-- A `WR` to CMD is a dispatch, since offset 0 is CMD's (R61, R103). -/
theorem exec_wr_cmd (w : Word) (s : State) : exec (.wr 0x00#8 w) s = dispatchCommand w s := rfl

theorem dispatchCommand_of_command {w : Word} {i : Instr} (h : CommandOf w i) (s : State) :
    dispatchCommand w s = exec i s := by
  rw [dispatchCommand, h.decodeCommand_eq]; cases h <;> rfl

theorem dispatchCommand_of_illegal {w : Word} (h : isCommandWord w = false) (s : State) :
    dispatchCommand w s = .next (s.refuse .illegalCmd) := by
  rw [dispatchCommand, (decodeCommand_eq_none_iff w).2 h]

/-- A command that answers nothing where LC admits it answers ERR by BAD_STATE only (R104, R105). -/
theorem eq_refuse_of_err {p : Prop} [Decidable p] {s a t : State} (ha : a.resp = none)
    (h : (if p then .next a else .next (s.refuse .badState) : Answer) = .next t) (herr : t.resp = errResponse) :
    t = s.refuse .badState := by
  split_ifs at h <;> cases h
  · rw [ha] at herr; cases herr
  · rfl

/-- The errors of a legal command's acceptance are BAD_STATE and CONV_RANGE (R104, R129). -/
theorem exec_command_err {w : Word} {i : Instr} (h : CommandOf w i) {s t : State} (he : exec i s = .next t)
    (herr : t.resp = errResponse) : t = s.refuse .badState ∨ t = s.refuse .convRange := by
  cases h with
  | cal => exact .inl (eq_refuse_of_err rfl he herr)
  | init => exact .inl (eq_refuse_of_err rfl he herr)
  | bit b => exact .inl (eq_refuse_of_err rfl he herr)
  | byte v => exact .inl (eq_refuse_of_err rfl he herr)
  | latch => exact .inl (eq_refuse_of_err rfl he herr)
  | conv =>
    rw [exec, execConv] at he
    split_ifs at he with hlc hzero hrange <;> cases he
    · exact .inr rfl
    · exact absurd herr (okWith_ne_errResponse _)
    · exact .inl rfl

/-- A legal command is never answered ILLEGAL_CMD. -/
theorem exec_command_ne_illegalCmd {w : Word} {i : Instr} (h : CommandOf w i) (s : State) :
    exec i s ≠ .next (s.refuse .illegalCmd) := by
  intro he
  rcases exec_command_err h he rfl with heq | heq
  · have hcode : RefuseCause.code .illegalCmd = RefuseCause.code .badState := congrArg State.lcode heq
    exact absurd hcode (by decide)
  · have hcode : RefuseCause.code .illegalCmd = RefuseCause.code .convRange := congrArg State.lcode heq
    exact absurd hcode (by decide)

/-- Settles O7: the listed words are those no row covers; they are refused, and no command is refused so. -/
theorem illegalCommandWords : Obligations.IllegalCommandWords := by
  intro w s
  rw [illegal_fields_iff, exec_wr_cmd]
  refine ⟨fun h => dispatchCommand_of_illegal h s, fun he => ?_⟩
  rw [← Bool.not_eq_true, isCommandWord_iff_command]
  rintro ⟨i, h⟩
  exact exec_command_ne_illegalCmd h s ((dispatchCommand_of_command h s).symm.trans he)

/-! ### Stops (R81, R129) -/

/-- The divisor of `CONV` is not 0 in a calibrated state (R129). -/
theorem State.Calibrated.divisor_ne_zero {s : State} (h : s.Calibrated) : s.tfDen.toNat * s.fudgeDen.toNat ≠ 0 := by
  obtain ⟨hclk, -, hfudge, -, -, hden, -⟩ := h.results
  have htf : 0 < s.tfDen.toNat := hden ▸ (tick_pos hclk).2
  exact (Nat.mul_pos htf hfudge).ne'

/-- In a state of the invariant every transaction has a next state. -/
theorem State.Inv.exec_next {s : State} (h : s.Inv) (i : Instr) : ∃ t, exec i s = .next t := by
  cases he : exec i s with
  | next t => exact ⟨t, rfl⟩
  | fault f => exact absurd he (exec_ne_fault fun hl => (h.calibrated hl).divisor_ne_zero)
  | refused r => exact absurd he exec_ne_refused

/-- Settles O40: each kind of cycle has a next state but the acceptance of a record that does not decode. -/
theorem onlyMalformedRecordsStopTheMachine : Obligations.OnlyMalformedRecordsStopTheMachine := by
  intro s hinv
  cases hr : s.rstAt 0 with
  | true => exact .inl ⟨_, step_of_reset hr⟩
  | false =>
    by_cases hp : s.phase = .idle
    · by_cases hh : ∃ r rest, s.host = .txn r :: rest
      · obtain ⟨r, rest, hh⟩ := hh
        cases hd : decode r with
        | ok i =>
          obtain ⟨t, ht⟩ := hinv.acceptCycle.exec_next i
          exact .inl ⟨t, (step_of_accept hr hp hh hd).trans ht⟩
        | error e => exact .inr ⟨r, rest, e, hh, hd, step_of_malformed hr hp hh hd⟩
      · push Not at hh
        exact .inl ⟨_, step_of_idle hr hp hh⟩
    · cases hs : s.stallAt 0 with
      | true => exact .inl ⟨_, step_of_stalled hr hp hs⟩
      | false => exact .inl ⟨_, step_of_busy hr hp hs⟩

/-! ### Colours on the line (R89, R232, R235) -/

theorem decode_byte_record (v : Byte) : decode (AsmLine.byte v).record = .ok (.byte v) := decode_encode rfl

/-- Settles O50: `led` by decoding its three lines, `frame` by the first step of its list of colours. -/
theorem ledSendsGreenRedBlue : Obligations.LedSendsGreenRedBlue := by
  intro r g b cs
  refine ⟨?_, rfl, rfl⟩
  simp only [led, List.map_cons, List.map_nil, decode_byte_record]

end Sys2Proof.Machine
end

section
/-! PROOFS. Access over the port: what the port takes while it is busy (R100), reads and writes register by register (R101,
R102), the dispatch of a command word and the admission table (R103, R104), and the one response of a transaction (R105). -/

namespace Sys2Proof.Machine

/-! ### The busy port and the acceptance cycle (R100, R153) -/

/-- A cycle with PHASE not IDLE neither takes from the host's queue nor reads it. -/
theorem step_host_of_busy {s : State} (hp : s.phase ≠ .idle) (q : List HostItem) :
    ∃ t, step s = .next t ∧ t.host = s.host ∧ step { s with host := q } = .next { t with host := q } := by
  cases hr : s.rstAt 0 with
  | true => exact ⟨s.resetCycle, step_of_reset hr, rfl, step_of_reset (s := { s with host := q }) hr⟩
  | false =>
    cases hs : s.stallAt 0 with
    | true => exact ⟨s.spend, step_of_stalled hr hp hs, rfl, step_of_stalled (s := { s with host := q }) hr hp hs⟩
    | false =>
      obtain ⟨hq, hhost⟩ := busyCycle_host s.spend q
      exact ⟨busyCycle s.spend, step_of_busy hr hp hs, hhost,
        (step_of_busy (s := { s with host := q }) hr hp hs).trans (congrArg Host.Outcome.next hq)⟩

/-- Settles O12: `req_ready` reads PHASE, and none of the three kinds of busy cycle uses the queue. -/
theorem busyPortAcceptsNothing : Obligations.BusyPortAcceptsNothing :=
  fun s q hp => ⟨by simp [State.reqReady, hp], step_host_of_busy hp q⟩

/-- The acceptance cycle takes the record presented from the queue. -/
theorem State.acceptCycle_of_host {s : State} {x : HostItem} {rest : List HostItem} (h : s.host = x :: rest) :
    s.acceptCycle = { s.spend with host := rest } := by
  rw [State.acceptCycle, h, List.tail_cons]

/-- Settles O9. -/
theorem stepRunsTheDecodedOperation : Obligations.StepRunsTheDecodedOperation := by
  intro s r rest i hp hr hh hd
  rw [step_of_accept hr hp hh hd, State.acceptCycle_of_host hh]
  rfl

/-! ### RD (R101) -/

/-- A read at a register's offset answers OK with its value and writes nothing. -/
theorem exec_rd_offset (r : Reg) (s : State) : exec (.rd r.offset) s = .next { s with resp := okWith (s.readReg r) } := by
  simp only [exec, execRd, regAt_offset]

/-- STATUS as a number, from the places of its fields (R23). -/
theorem State.statusWord_eq_ofNat (s : State) :
    s.statusWord = BitVec.ofNat 32 (s.pinOe.toNat * 2 ^ 5 + s.pin.toNat * 2 ^ 4 + s.lc.code.toNat) := by
  have hoe := s.pinOe.toNat_le
  have hpin := s.pin.toNat_le
  have hlc := s.lc.code.isLt
  apply BitVec.eq_of_toNat_eq
  simp only [State.statusWord, toNat_append, BitVec.toNat_ofBool, BitVec.toNat_ofNat]
  omega

/-- ERR as a number, from the places of its fields (R24). -/
theorem State.errWord_eq_ofNat (s : State) : s.errWord = BitVec.ofNat 32 (s.lcode.toNat * 2 ^ 8 + s.fcode.toNat) := by
  have hl := s.lcode.isLt
  have hf := s.fcode.isLt
  apply BitVec.eq_of_toNat_eq
  simp only [State.errWord, toNat_append, BitVec.toNat_ofNat]
  omega

/-- Settles O13: each offset is its register's, so one lemma reads them all; the others have no register. -/
theorem readReturnsTheRegister : Obligations.ReadReturnsTheRegister := by
  intro s
  have read := fun r => exec_rd_offset r s
  refine ⟨read .cmd, ?status, ?err, read .clkhz, read .fudgeNum, read .fudgeDen, read .t0hNs, read .t0lNs, read .t1hNs,
    read .t1lNs, read .resUs, read .tfNum, read .tfDen, read .cntT0h, read .cntT0l, read .cntT1h, read .cntT1l,
    read .cntRes, read .convNs, read .convIters, read .id,
    fun off hbad => exec_rd_of_regAt_none ((regAt_eq_none_iff off).2 hbad) s⟩
  case status =>
    refine (read .status).trans ?_
    rw [State.readReg, State.statusWord_eq_ofNat]
    cases s.lc <;> rfl
  case err =>
    refine (read .err).trans ?_
    rw [State.readReg, State.errWord_eq_ofNat]
    rfl

/-! ### WR (R102) -/

theorem State.lockedWrite_of_uncal {s : State} (h : s.lc = .uncal) (w : State) : s.lockedWrite w = .next w.respondOk :=
  if_pos h

theorem State.lockedWrite_of_ne {s : State} (h : s.lc ≠ .uncal) (w : State) :
    s.lockedWrite w = .next (s.refuse .lockedWrite) :=
  if_neg h

/-- A write to a register that is neither CMD nor one of the four writable ones is refused (R102, R193). -/
theorem exec_wr_of_readOnly {r : Reg} (h : r.offset.toNat ∉ [0x00, 0x0C, 0x10, 0x14, 0x48]) (data : Word) (s : State) :
    exec (.wr r.offset data) s = .next (s.refuse .roWrite) := by
  cases r
  case cmd | clkhz | fudgeNum | fudgeDen | convNs => exact absurd (by decide) h
  all_goals rfl

/-- Settles O15: the writable registers one by one, then the read-only ones by their offsets, then the bad offsets. -/
theorem writeStoresOrIsRefused : Obligations.WriteStoresOrIsRefused := by
  intro s data
  refine ⟨fun hl => ⟨State.lockedWrite_of_uncal hl _, State.lockedWrite_of_uncal hl _, State.lockedWrite_of_uncal hl _⟩,
    fun hl off hoff => ?locked, rfl, fun off hal hle hoff => ?readOnly,
    fun off hbad => exec_wr_of_regAt_none ((regAt_eq_none_iff off).2 hbad) data s⟩
  case locked =>
    obtain rfl | rfl | rfl : off = 0x0C#8 ∨ off = 0x10#8 ∨ off = 0x14#8 := by
      simpa [← BitVec.toNat_inj] using hoff
    all_goals exact State.lockedWrite_of_ne hl _
  case readOnly =>
    have hsome : regAt off ≠ none := by rw [ne_eq, regAt_eq_none_iff]; omega
    obtain ⟨r, hr⟩ := Option.ne_none_iff_exists'.1 hsome
    obtain rfl := offset_of_regAt hr
    exact exec_wr_of_readOnly hoff data s

/-! ### Admission and dispatch (R103, R104) -/

/-- A command that answers nothing where LC admits it is refused exactly where LC does not. -/
theorem ite_eq_refuse_iff {p : Prop} [Decidable p] {s a : State} (ha : a.resp = none) :
    (if p then .next a else .next (s.refuse .badState) : Answer) = .next (s.refuse .badState) ↔ ¬p := by
  refine ⟨fun h hp => ?_, fun hp => if_neg hp⟩
  rw [if_pos hp] at h
  injection h with h
  rw [h] at ha
  cases ha

/-- An admitted `CONV` answers OK or CONV_RANGE, or stops, so BAD_STATE is its refusal by LC (R104, R129). -/
theorem execConv_eq_refuse_iff (s : State) :
    execConv s = .next (s.refuse .badState) ↔ ¬(s.lc = .cald ∨ s.lc = .ready) := by
  refine ⟨fun h hl => ?_, fun hl => if_neg hl⟩
  rw [execConv, if_pos hl] at h
  split_ifs at h with hzero hrange
  · injection h with h
    have hcode : RefuseCause.code .convRange = RefuseCause.code .badState := congrArg State.lcode h
    exact absurd hcode (by decide)
  · injection h with h
    exact okWith_ne_errResponse _ (congrArg State.resp h)

/-- Settles O17: the condition each command checks, as the cells of the table that do not say `run`. -/
theorem admissionTable : Obligations.AdmissionTable := by
  intro s
  have notReady : ¬s.lc = .ready ↔ s.lc ∈ [Lifecycle.uncal, .cald, .fault] := by cases s.lc <;> decide
  refine ⟨(ite_eq_refuse_iff rfl).trans ?cal, (ite_eq_refuse_iff rfl).trans ?init,
    (execConv_eq_refuse_iff s).trans ?conv, fun b => (ite_eq_refuse_iff rfl).trans notReady,
    fun v => (ite_eq_refuse_iff rfl).trans notReady, (ite_eq_refuse_iff rfl).trans notReady⟩
  all_goals cases s.lc <;> decide

/-- No row of the admission table runs in FAULT. -/
theorem exec_command_of_fault {w : Word} {i : Instr} (h : CommandOf w i) {s : State} (hl : s.lc = .fault) :
    exec i s = .next (s.refuse .badState) := by
  obtain ⟨hcal, hinit, hconv, hbit, hbyte, hlatch⟩ := admissionTable s
  cases h with
  | cal => exact hcal.2 (by simp [hl])
  | init => exact hinit.2 (by simp [hl])
  | conv => exact hconv.2 (by simp [hl])
  | bit b => exact (hbit b).2 (by simp [hl])
  | byte v => exact (hbyte v).2 (by simp [hl])
  | latch => exact hlatch.2 (by simp [hl])

/-- Settles O16: the decoder reads the words of the commands, each runs by its own rule, and none runs in FAULT. -/
theorem commandWriteIsDispatched : Obligations.CommandWriteIsDispatched := by
  intro w s
  rw [exec_wr_cmd]
  refine ⟨fun h => dispatchCommand_of_illegal ((decodeCommand_eq_none_iff w).1 h) s, fun i h => ?_, fun hl h => ?_⟩
  · have hc := CommandOf.of_decodeCommand h
    exact ⟨dispatchCommand_of_command hc s, hc.encode_eq⟩
  · obtain ⟨i, hi⟩ := Option.ne_none_iff_exists'.1 h
    have hc := CommandOf.of_decodeCommand hi
    exact (dispatchCommand_of_command hc s).trans (exec_command_of_fault hc hl)

/-! ### One response per transaction (R105) -/

/-- A transaction is answered in its acceptance cycle exactly if it starts no segment. -/
theorem ExecTo.answered_iff {i : Instr} {s t : State} (h : ExecTo i s t) (hp : s.phase = .idle) :
    t.resp.isSome = true ↔ t.phase = .idle := by
  cases h <;> simp [hp, okWith, errResponse]

/-- Only a successful `RD` answers with read data. -/
theorem ExecTo.rd_of_rdata {i : Instr} {s t : State} (h : ExecTo i s t) {x : Response} (hx : t.resp = some x)
    (hd : x.rdata ≠ 0#32) : x.err = false ∧ ∃ off, i = .rd off := by
  cases h with
  | read off r hi => cases hx; exact ⟨rfl, off, hi⟩
  | _ => cases hx <;> exact absurd rfl hd

/-- The end of a segment answers exactly if the operation ends with it. -/
theorem SegmentEndTo.answered_iff {s t : State} (h : SegmentEndTo s t) (hp : s.phase ≠ .idle) :
    t.resp.isSome = true ↔ t.phase = .idle := by
  cases h with
  | idle hidle => exact absurd hidle hp
  | _ => simp [okWith, errResponse]

/-- The end of a segment answers nothing or OK, or ERR where a `CAL` fails (R105, R126). -/
theorem SegmentEndTo.resp {s t : State} (h : SegmentEndTo s t) (hp : s.phase ≠ .idle) :
    t.resp = none ∨ t.resp = okWith 0#32 ∨ (s.phase = .calculate ∧ t.resp = errResponse) := by
  cases h with
  | idle hidle => exact absurd hidle hp
  | fatal c hc => exact .inr (.inr ⟨hc, rfl⟩)
  | _ => simp

/-- What a busy cycle answers, and when. -/
theorem step_resp_of_busy {s t : State} (h : step s = .next t) (hr : s.rstAt 0 = false) (hp : s.phase ≠ .idle) :
    (t.resp.isSome = true ↔ t.phase = .idle) ∧
      (t.resp = none ∨ t.resp = okWith 0#32 ∨ (s.phase = .calculate ∧ t.resp = errResponse)) := by
  rcases step_cases_of_noReset h hr with ⟨q, r, rfl⟩ | ⟨hidle, -⟩ | ⟨-, -, -, he⟩
  · simp [hp]
  · exact absurd hidle hp
  · exact ⟨he.answered_iff hp, he.resp hp⟩

/-- In IDLE the cycle is an idle one or carries out the transaction presented (R100). -/
theorem step_cases_of_idle {s t : State} (h : step s = .next t) (hr : s.rstAt 0 = false) (hp : s.phase = .idle) :
    ((∀ r rest, s.host ≠ .txn r :: rest) ∧ t = s.idleCycle) ∨
    (∃ r rest i, s.host = .txn r :: rest ∧ decode r = .ok i ∧ ExecTo i s.acceptCycle t) := by
  rcases step_cases h with
    ⟨hr', -⟩ | ⟨-, -, hno, ht⟩ | ⟨-, -, r, rest, i, hh, hd, he⟩ | ⟨-, hp', -⟩ | ⟨-, hp', -⟩
  · simp [hr] at hr'
  · exact .inl ⟨hno, ht⟩
  · exact .inr ⟨r, rest, i, hh, hd, exec_cases he⟩
  · exact absurd hp hp'
  · exact absurd hp hp'

/-- Settles O46: the idle cycle, the acceptance cycle and the busy cycle, each by what it can answer. -/
theorem oneResponsePerTransaction : Obligations.OneResponsePerTransaction := by
  intro s t _ h hr
  by_cases hp : s.phase = .idle
  · rcases step_cases_of_idle h hr hp with ⟨hno, rfl⟩ | ⟨r, rest, i, hh, hd, he⟩
    · exact ⟨fun _ _ => rfl, fun _ ⟨r, rest, hh⟩ => absurd hh (hno r rest), fun hb => absurd hp hb,
        fun hb => absurd hp hb, fun x hx => by cases hx⟩
    · refine ⟨fun _ hno => absurd hh (hno r rest), fun _ _ => he.answered_iff hp, fun hb => absurd hp hb,
        fun hb => absurd hp hb, fun x hx hdata => ?_⟩
      obtain ⟨herr, off, rfl⟩ := he.rd_of_rdata hx hdata
      exact ⟨herr, r, rest, off, hh, hd⟩
  · obtain ⟨hiff, hresp⟩ := step_resp_of_busy h hr hp
    refine ⟨fun hi => absurd hi hp, fun hi => absurd hi hp, fun _ => hiff, fun _ hc => ?_, fun x hx hdata => ?_⟩
    · exact hresp.imp_right fun hor => hor.resolve_right fun hfail => hc hfail.1
    · have hzero : x.rdata = 0#32 := by
        rcases hresp with hn | hok | ⟨-, herr⟩
        · rw [hn] at hx; cases hx
        · rw [hok] at hx; cases hx; rfl
        · rw [herr] at hx; cases hx; rfl
      exact absurd hzero hdata

end Sys2Proof.Machine
end

section
/-! PROOFS. The calibrator's arithmetic: the two roundings of an exact quotient (R16), the reduced ratio (R121), the
conversion and its laws (R122, R130), and the supported clocks (R133). -/

namespace Sys2Proof.Machine

/-! ### Roundings (R16) -/

/-- The ceiling is the least whole number not below the quotient: the other facts about it follow from this. -/
theorem cdiv_le_iff {x q n : Nat} (hq : 0 < q) : cdiv x q ≤ n ↔ x ≤ n * q := by
  rw [Nat.mul_comm n q]; exact ceilDiv_le_iff_le_mul hq

theorem cdiv_le_cdiv {x x' q q' : Nat} (hx : x ≤ x') (hq : 0 < q') (hqq : q' ≤ q) : cdiv x q ≤ cdiv x' q' := by
  rw [cdiv_le_iff (hq.trans_le hqq)]
  calc x ≤ x' := hx
    _ ≤ cdiv x' q' * q' := (cdiv_bounds x' q' hq).1
    _ ≤ cdiv x' q' * q := Nat.mul_le_mul_left _ hqq

theorem cdiv_mul_right {x q g : Nat} (hq : 0 < q) (hg : 0 < g) : cdiv (x * g) (q * g) = cdiv x q := by
  refine eq_of_forall_ge_iff fun n => ?_
  rw [cdiv_le_iff (Nat.mul_pos hq hg), cdiv_le_iff hq, ← Nat.mul_assoc, Nat.mul_le_mul_right_iff hg]

theorem cdiv_le_div_add_one (x : Nat) {q : Nat} (hq : 0 < q) : cdiv x q ≤ x / q + 1 :=
  (cdiv_le_iff hq).2 (floor_bounds x q hq).2.le

theorem div_le_cdiv (x : Nat) {q : Nat} (hq : 0 < q) : x / q ≤ cdiv x q := Nat.div_le_div_right (by omega)

/-- The two roundings agree exactly at a whole quotient. -/
theorem cdiv_eq_div_iff {x q : Nat} (hq : 0 < q) : cdiv x q = x / q ↔ q ∣ x :=
  calc cdiv x q = x / q
      ↔ cdiv x q ≤ x / q := ⟨le_of_eq, fun h => h.antisymm (div_le_cdiv x hq)⟩
    _ ↔ x ≤ x / q * q := cdiv_le_iff hq
    _ ↔ x / q * q = x := ⟨(Nat.div_mul_le_self x q).antisymm, ge_of_eq⟩
    _ ↔ q ∣ x := (Nat.dvd_iff_div_mul_eq x q).symm

/-- The floor of a sum exceeds the sum of the floors by at most 1. -/
theorem add_div_le_add_one (x y : Nat) {q : Nat} (hq : 0 < q) : (x + y) / q ≤ x / q + y / q + 1 := by
  rw [Nat.add_div hq]; split_ifs <;> omega

/-! ### The reduced ratio (R121) -/

theorem gcd_nsPerS_pos (c : Nat) : 0 < Nat.gcd c nsPerS := Nat.gcd_pos_of_pos_right _ (by decide)

/-- The TickFactor is the ratio of the clock to one second. -/
theorem tickNum_mul_nsPerS (c : Nat) : tickNum c * 1000000000 = c * tickDen c :=
  calc tickNum c * 1000000000
      = tickNum c * (tickDen c * Nat.gcd c nsPerS) := by rw [tickDen_mul_gcd]
    _ = tickNum c * Nat.gcd c nsPerS * tickDen c := by ring
    _ = c * tickDen c := by rw [tickNum_mul_gcd]

theorem tick_coprime (c : Nat) : Nat.gcd (tickNum c) (tickDen c) = 1 :=
  Nat.coprime_div_gcd_div_gcd (gcd_nsPerS_pos c)

/-- The common divisor with a power of a prime is the smaller of the two powers. -/
theorem gcd_prime_pow_eq {p a c : Nat} (hp : p.Prime) (n : Nat) (ha : p ^ a ∣ c) (hmax : ¬p ^ (a + 1) ∣ c) :
    Nat.gcd c (p ^ n) = p ^ min a n := by
  obtain ⟨k, hk, hgcd⟩ := (Nat.dvd_prime_pow hp).1 (Nat.gcd_dvd_right c (p ^ n))
  have hka : k ≤ a := by
    by_contra hlt
    exact hmax ((Nat.pow_dvd_pow p (by omega)).trans (hgcd ▸ Nat.gcd_dvd_left c (p ^ n)))
  refine Nat.dvd_antisymm (hgcd ▸ Nat.pow_dvd_pow p (le_min hka hk)) (Nat.dvd_gcd ?_ ?_)
  · exact (Nat.pow_dvd_pow p (min_le_left a n)).trans ha
  · exact Nat.pow_dvd_pow p (min_le_right a n)

/-- Settles O22: the quotients by the greatest common divisor, and that divisor prime by prime (`10^9 = 2^9 * 5^9`). -/
theorem tickFactorIsReduced : Obligations.TickFactorIsReduced := by
  intro c hc
  refine ⟨tick_coprime c, tickNum_mul_nsPerS c, (tick_pos hc).1, ⟨_, (tickDen_mul_gcd c).symm⟩, ?_⟩
  intro a b ha hamax hb hbmax
  have hcop : Nat.Coprime (2 ^ 9) (5 ^ 9) := by decide
  calc Nat.gcd c 1000000000
      = Nat.gcd c (2 ^ 9) * Nat.gcd c (5 ^ 9) := hcop.gcd_mul c
    _ = 2 ^ min a 9 * 5 ^ min b 9 := by
      rw [gcd_prime_pow_eq Nat.prime_two 9 ha hamax, gcd_prime_pow_eq Nat.prime_five 9 hb hbmax]

/-! ### The conversion (R122) -/

/-- The reduced quotient, expanded by the common divisor, is the ratio of the clock to one second. -/
theorem expand_reduced (c fn fd d : Nat) :
    d * c * fn = d * tickNum c * fn * Nat.gcd c nsPerS ∧ 1000000000 * fd = tickDen c * fd * Nat.gcd c nsPerS := by
  constructor
  · conv_lhs => rw [← tickNum_mul_gcd c]
    ring
  · conv_lhs => rw [← tickDen_mul_gcd c]
    ring

theorem iters_tick (c fn fd d : Nat) :
    iters (tickNum c) (tickDen c) fn fd d = d * c * fn / (1000000000 * fd) := by
  obtain ⟨hx, hq⟩ := expand_reduced c fn fd d
  rw [hx, hq, Nat.mul_div_mul_right _ _ (gcd_nsPerS_pos c), iters]

theorem itersUp_tick {c fd : Nat} (hc : 0 < c) (hfd : 0 < fd) (fn d : Nat) :
    itersUp (tickNum c) (tickDen c) fn fd d = cdiv (d * c * fn) (1000000000 * fd) := by
  obtain ⟨hx, hq⟩ := expand_reduced c fn fd d
  rw [hx, hq, cdiv_mul_right (Nat.mul_pos (tick_pos hc).2 hfd) (gcd_nsPerS_pos c), itersUp]

/-- Settles O23. -/
theorem reductionChangesNoResult : Obligations.ReductionChangesNoResult :=
  fun c fn fd d hc hfd => ⟨iters_tick c fn fd d, itersUp_tick hc hfd fn d⟩

/-- Settles O24: both roundings are those of one exact quotient, whose dividend grows with duration, clock and `fn`, and
whose divisor grows with `fd`. -/
theorem conversionLaws : Obligations.ConversionLaws := by
  intro c fn fd d hc hfd f g
  have hf : ∀ c fn fd d, f c fn fd d = d * c * fn / (1000000000 * fd) := iters_tick
  have hg : ∀ {c fd}, 0 < c → 0 < fd → ∀ fn d, g c fn fd d = cdiv (d * c * fn) (1000000000 * fd) := itersUp_tick
  have hq : 0 < 1000000000 * fd := by omega
  obtain ⟨hfloor, hfloor'⟩ := floor_bounds (d * c * fn) _ hq
  obtain ⟨hceil, hceil'⟩ := cdiv_bounds (d * c * fn) _ hq
  rw [hf c fn fd d, hg hc hfd fn d]
  refine ⟨?zero, ?grows, ?falls, hfloor, hfloor', hceil, hceil', cdiv_eq_div_iff hq, cdiv_le_div_add_one _ hq,
    ?additive, ?scale⟩
  case zero => simp [hf]
  case grows =>
    intro c' fn' d' hcc hfn hd
    have hx : d * c * fn ≤ d' * c' * fn' := Nat.mul_le_mul (Nat.mul_le_mul hd hcc) hfn
    rw [hf, hg (hc.trans_le hcc) hfd]
    exact ⟨Nat.div_le_div_right hx, cdiv_le_cdiv hx hq le_rfl⟩
  case falls =>
    intro fd' hle
    have hqq : 1000000000 * fd ≤ 1000000000 * fd' := Nat.mul_le_mul_left _ hle
    rw [hf, hg hc (hfd.trans_le hle)]
    exact ⟨Nat.div_le_div_left hqq hq, cdiv_le_cdiv le_rfl hq hqq⟩
  case additive =>
    intro d'
    rw [hf, hf, Nat.add_mul, Nat.add_mul]
    exact ⟨Nat.div_add_div_le_add_div, add_div_le_add_one _ _ hq⟩
  case scale =>
    intro k hk
    have hx : d * c * (k * fn) = d * c * fn * k := by ring
    have hqk : 1000000000 * (k * fd) = 1000000000 * fd * k := by ring
    rw [hf, hg hc (Nat.mul_pos hk hfd), hx, hqk]
    exact ⟨Nat.mul_div_mul_right _ _ hk, cdiv_mul_right hq hk⟩

/-! ### The supported clocks (R133) -/

/-- A calibration succeeds exactly if none of the four fatal causes applies (R127). -/
theorem exists_calibrate_ok_iff (p : Params) (c fn fd : Nat) :
    (∃ k, calibrate p c fn fd = .ok k) ↔
      c ≠ 0 ∧ fn ≠ 0 ∧ fd ≠ 0 ∧ (counts p c fn fd).someZero = false ∧ (counts p c fn fd).someOverflow = false := by
  simp only [calibrate_eq_ok_iff]
  constructor
  · rintro ⟨k, hc, hfn, hfd, hz, ho, rfl⟩; exact ⟨hc, hfn, hfd, hz, ho⟩
  · rintro ⟨hc, hfn, hfd, hz, ho⟩; exact ⟨_, hc, hfn, hfd, hz, ho, rfl⟩

/-- R127 order 3, count by count. -/
theorem Calibration.someZero_iff (k : Calibration) :
    k.someZero = true ↔ k.h0 = 0 ∨ k.l0 = 0 ∨ k.h1 = 0 ∨ k.l1 = 0 := by
  simp [Calibration.someZero, or_assoc]

/-- R127 order 4, count by count. -/
theorem Calibration.someOverflow_iff (k : Calibration) :
    k.someOverflow = true ↔
      2 ^ 32 ≤ k.h0 ∨ 2 ^ 32 ≤ k.l0 ∨ 2 ^ 32 ≤ k.h1 ∨ 2 ^ 32 ≤ k.l1 ∨ 2 ^ 32 ≤ k.rs := by
  simp [Calibration.someOverflow, or_assoc]

/-- Settles O25: the shortest reference timing, 350 ns, decides, since no count of a 32-bit clock overflows. -/
theorem supportedRangeAtReferenceTimings : Obligations.SupportedRangeAtReferenceTimings := by
  intro p c h0 l0 h1 l1 rs
  have hlt := c.isLt
  rw [exists_calibrate_ok_iff, ← Bool.not_eq_true, ← Bool.not_eq_true, Calibration.someZero_iff,
    Calibration.someOverflow_iff]
  rcases Nat.eq_zero_or_pos c.toNat with hc | hc
  · omega
  · simp only [counts, iters_tick, itersUp_tick hc Nat.one_pos, cdiv, h0, l0, h1, l1, rs, BitVec.toNat_ofNat]
    omega

end Sys2Proof.Machine
end

section
/-! PROOFS. The calibrator at work: the commands at acceptance (R126, R155 to R158), `CAL` from acceptance to response
(R126, R127, R191), `CONV` (R129), and what the counts of a calibrated state last in wall time (R123 to R125). -/

namespace Sys2Proof.Machine

/-! ### Commands at acceptance (R126, R155 to R158) -/

/-- Settles O19: each command's admission check holds, and its first segment is the one its rule gives. -/
theorem admittedCommandsStartTheirSegment : Obligations.AdmittedCommandsStartTheirSegment :=
  fun _ => ⟨fun hl => if_pos hl, fun hl => if_pos hl, fun hl _ => if_pos hl, fun hl _ => if_pos hl,
    fun hl => if_pos hl⟩

/-- The acceptance cycle carries out the operation the host presents (R100). -/
theorem State.Accepts.step_eq {s : State} {i : Instr} {rest : List HostItem} (h : s.Accepts i rest)
    (hi : i.wellFormed = true) : step s = exec i { s.spend with host := rest } := by
  obtain ⟨hp, hh, hr⟩ := h
  rw [step_of_accept hr hp hh (decode_encode hi), State.acceptCycle_of_host hh]

/-! ### The four causes and the results (R126, R127) -/

theorem calibrate_of_clkZero (p : Params) (fn fd : Nat) : calibrate p 0 fn fd = .error .clkZero := if_pos rfl

theorem calibrate_of_fudgeInvalid (p : Params) {c fn fd : Nat} (hc : c ≠ 0) (h : fn = 0 ∨ fd = 0) :
    calibrate p c fn fd = .error .fudgeInvalid := by rw [calibrate, if_neg hc, if_pos h]

/-- With a clock and a fudge factor the five counts decide. -/
theorem calibrate_of_config (p : Params) {c fn fd : Nat} (hc : c ≠ 0) (hfn : fn ≠ 0) (hfd : fd ≠ 0) :
    calibrate p c fn fd =
      if (counts p c fn fd).someZero then .error .countZero
      else if (counts p c fn fd).someOverflow then .error .countOverflow
      else .ok (counts p c fn fd) := by
  rw [calibrate, if_neg hc, if_neg (not_or.2 ⟨hfn, hfd⟩)]

/-! ### CAL from acceptance to response (R126, R191) -/

/-- The state a `CAL` accepted in `s` computes in: its acceptance cycle and `k` cycles of CALC are spent. -/
def State.calculating (s : State) (rest : List HostItem) (k : Nat) : State :=
  { s.afterCycles (1 + k) with
    host := rest, phase := .calculate, rem := BitVec.ofNat 40 s.params.calCycles.val }

theorem State.calculating_afterCycles (s : State) (rest : List HostItem) (k : Nat) :
    (s.calculating rest 0).afterCycles k = s.calculating rest k := by
  rw [State.calculating, State.calculating, ← State.afterCycles_afterCycles s 1 k]; rfl

theorem runFor_one_of_cal {s : State} {rest : List HostItem} (ha : s.Accepts .cal rest) (hl : s.lc = .uncal) :
    runFor 1 s = .next (s.calculating rest 0) := by
  rw [runFor_one, ha.step_eq rfl]
  refine (if_pos hl).trans ?_
  rw [State.calculating, Nat.add_zero, State.afterCycles_one]
  rfl

/-- Without reset and stalls `CAL` ends after `1 + CAL_CYCLES` cycles, all in CALC but the first (R126). -/
theorem runFor_cal {s : State} {rest : List HostItem} (hp : s.params.InRange) (ha : s.Accepts .cal rest)
    (hl : s.lc = .uncal) (hr : s.NoReset (1 + s.params.calCycles.val))
    (hs : s.NoStall 1 (1 + s.params.calCycles.val)) :
    runFor (1 + s.params.calCycles.val) s = .next (finishCal (s.calculating rest s.params.calCycles.val)) := by
  have hstart := runFor_one_of_cal ha hl
  have hfits := calCycles_fitsRem hp
  have hend := runFor_segment_after s.params.calCycles.val hstart (by simp [State.calculating]) hfits.toNat_ofNat
    hfits.1 Nat.one_pos (s.afterCycles_rstAt 1) (s.afterCycles_stallAt 1) hr hs
  rw [hend.1, State.calculating_afterCycles, segmentEnd_of_calc rfl]

/-- In a cycle of CALC `np` is 0, as it is in reset (R163). -/
theorem State.np_of_calc {s : State} (h : s.phase = .calculate) : s.outputs.np = false := by
  rw [State.outputs_np]
  cases hr : s.rstAt 0 with
  | true => rw [State.visible_of_reset hr]; rfl
  | false => rw [State.visible_eq hr, h]; rfl

/-- Between acceptance and response `CAL` is in CALC. -/
theorem runFor_during_cal {s : State} {rest : List HostItem} {k : Nat} (hp : s.params.InRange)
    (ha : s.Accepts .cal rest) (hl : s.lc = .uncal) (hr : s.NoReset (1 + s.params.calCycles.val))
    (hs : s.NoStall 1 (1 + s.params.calCycles.val)) (hk : k < s.params.calCycles.val) :
    ∃ v, runFor (1 + k) s = .next v ∧ v.phase = .calculate := by
  have hstart := runFor_one_of_cal ha hl
  rw [runFor_add hstart]
  cases k with
  | zero => exact ⟨_, rfl, rfl⟩
  | succ k =>
    have hrem : (s.calculating rest 0).rem.toNat = s.params.calCycles.val := (calCycles_fitsRem hp).toNat_ofNat
    have hin := runFor_inside (s := s.calculating rest 0) k (by simp [State.calculating]) (hrem.symm ▸ hk)
      (State.NoReset.of_inputs (fun j hj => hr j (by omega)) (s.afterCycles_rstAt 1))
      (State.NoStall.of_inputs (fun j h1 hj => hs j h1 (by omega)) le_rfl (s.afterCycles_stallAt 1))
    exact ⟨_, hin.1, rfl⟩

/-- A failed `CAL` writes FCODE and LC and nothing else (R191). -/
theorem finishCal_calculating_of_error {s : State} {c : FatalCause} (rest : List HostItem) (k : Nat)
    (hp : s.phase = .idle) (hrem : s.rem = 0#40) (h : s.calibration = .error c) :
    finishCal (s.calculating rest k) =
      { s.afterCycles (1 + k) with host := rest, fcode := c.code, lc := .fault, resp := errResponse } := by
  have h' : (s.calculating rest k).calibration = .error c := h
  rw [finishCal, h']
  simp only [State.fatal, State.calculating, State.afterCycles, hp, hrem]

/-- A successful `CAL` writes the seven results and LC and nothing else (R126). -/
theorem finishCal_calculating_of_ok {s : State} {r : Calibration} (rest : List HostItem) (k : Nat)
    (hp : s.phase = .idle) (hrem : s.rem = 0#40) (h : s.calibration = .ok r) :
    finishCal (s.calculating rest k) =
      { (s.afterCycles (1 + k)).storeResults r with host := rest, lc := .cald, resp := okWith 0#32 } := by
  have h' : (s.calculating rest k).calibration = .ok r := h
  rw [finishCal, h']
  simp only [State.complete, State.storeResults, State.calculating, State.afterCycles, hp, hrem]

/-- Settles O20: the run ends in `finishCal`, which writes what `calibrate` answers, cause by cause. -/
theorem calRunsTheCalibrator : Obligations.CalRunsTheCalibrator := by
  intro s rest n hp ha hl hrem hn hr hs u c fn fd num den h0 l0 h1 l1 rs failed zero tooBig
  subst hn
  have hrun := runFor_cal hp ha hl hr hs
  have hzero : (counts s.params c fn fd).someZero = true ↔ zero := Calibration.someZero_iff _
  have hbig : (counts s.params c fn fd).someOverflow = true ↔ tooBig := Calibration.someOverflow_iff _
  have fail (x : FatalCause) (hx : calibrate s.params c fn fd = .error x) : failed x.code :=
    hrun.trans (congrArg _ (finishCal_calculating_of_error rest _ ha.1 hrem hx))
  refine ⟨fun hc => ?clkZero, fun hc hf => ?fudgeInvalid, fun hc hfn hfd hz => ?countZero,
    fun hc hfn hfd hz hb => ?countOverflow, fun hc hfn hfd hz hb => ?succeeds, fun k hpos hk => ?during⟩
  case clkZero => exact fail .clkZero (hc ▸ calibrate_of_clkZero s.params fn fd)
  case fudgeInvalid => exact fail .fudgeInvalid (calibrate_of_fudgeInvalid s.params hc hf)
  case countZero => exact fail .countZero (by rw [calibrate_of_config _ hc hfn hfd, if_pos (hzero.2 hz)])
  case countOverflow =>
    exact fail .countOverflow (by
      rw [calibrate_of_config _ hc hfn hfd, if_neg (mt hzero.1 hz), if_pos (hbig.2 hb)])
  case succeeds =>
    have hok : s.calibration = .ok (counts s.params c fn fd) := by
      rw [State.calibration, calibrate_of_config _ hc hfn hfd, if_neg (mt hzero.1 hz), if_neg (mt hbig.1 hb)]
    exact hrun.trans (congrArg _ (finishCal_calculating_of_ok rest _ ha.1 hrem hok))
  case during =>
    obtain ⟨j, rfl⟩ := Nat.exists_eq_add_of_le hpos
    obtain ⟨v, hv, hphase⟩ := runFor_during_cal hp ha hl hr hs (show j < s.params.calCycles.val by omega)
    exact ⟨v, hv, hphase, State.np_of_calc hphase⟩

/-! ### CONV (R129) -/

/-- Settles O21. -/
theorem convStoresTheFloor : Obligations.ConvStoresTheFloor := by
  intro s q
  refine ⟨fun hl hdiv => ⟨fun hq => ?stored, fun hq => ?range⟩, fun hl => ?badState,
    fun hinv hl => (hinv.calibrated hl).divisor_ne_zero⟩
  case stored => exact (if_pos hl).trans ((if_neg hdiv).trans (if_neg (Nat.not_le.2 hq)))
  case range => exact (if_pos hl).trans ((if_neg hdiv).trans (if_pos hq))
  case badState => exact (execConv_eq_refuse_iff s).2 (by rcases hl with hl | hl <;> simp [hl])

/-! ### Wall time under the true clock (R17, R123) -/

theorem State.TrueClock.clkhz_pos {s : State} (h : s.TrueClock) : 0 < s.clkhz.toNat :=
  Nat.pos_of_mul_pos_right (h.clock ▸ h.fTrueNum_pos)

theorem State.TrueClock.fudgeNum_pos {s : State} (h : s.TrueClock) : 0 < s.fudgeNum.toNat :=
  Nat.pos_of_mul_pos_right (h.fudge ▸ h.fudgeDen_pos)

theorem State.TrueClock.iterCycles_pos {s : State} (h : s.TrueClock) : 0 < s.params.iterCycles.val :=
  Nat.pos_of_mul_pos_left (h.fudge ▸ h.fudgeDen_pos)

/-- With the true clock `n` cycles last `n * 10^9 / CLKHZ` nanoseconds. -/
theorem State.TrueClock.wallTimeNs_eq {s : State} (h : s.TrueClock) (n : Nat) :
    s.wallTimeNs n = (n * 1000000000 : Nat) / (s.clkhz.toNat : Rat) := by
  have hden : (s.params.fTrueDen : Rat) ≠ 0 := by exact_mod_cast h.fTrueDen_pos.ne'
  rw [State.wallTimeNs, h.clock]
  push_cast
  exact mul_div_mul_right _ _ hden

theorem State.TrueClock.wallTimeNs_le_iff {s : State} (h : s.TrueClock) {n d : Nat} :
    s.wallTimeNs n ≤ d ↔ n * 1000000000 ≤ d * s.clkhz.toNat := by
  have hc : (0 : Rat) < s.clkhz.toNat := by exact_mod_cast h.clkhz_pos
  rw [h.wallTimeNs_eq, div_le_iff₀ hc]
  exact_mod_cast Iff.rfl

theorem State.TrueClock.le_wallTimeNs_iff {s : State} (h : s.TrueClock) {n d : Nat} :
    (d : Rat) ≤ s.wallTimeNs n ↔ d * s.clkhz.toNat ≤ n * 1000000000 := by
  have hc : (0 : Rat) < s.clkhz.toNat := by exact_mod_cast h.clkhz_pos
  rw [h.wallTimeNs_eq, le_div_iff₀ hc]
  exact_mod_cast Iff.rfl

theorem State.wallTimeNs_add (s : State) (m n : Nat) : s.wallTimeNs (m + n) = s.wallTimeNs m + s.wallTimeNs n := by
  simp only [State.wallTimeNs]; push_cast; ring

theorem State.TrueClock.iterDivisor_pos {s : State} (h : s.TrueClock) : 0 < 1000000000 * s.params.iterCycles.val :=
  Nat.mul_pos (by decide) h.iterCycles_pos

/-- With the fudge factor `1 / ITER_CYCLES` the conversion divides by the cycles of an iteration (R123). -/
theorem State.TrueClock.divisor_eq {s : State} (h : s.TrueClock) :
    1000000000 * s.fudgeDen.toNat = 1000000000 * s.params.iterCycles.val * s.fudgeNum.toNat := by
  rw [← h.fudge]; ring

theorem State.TrueClock.iters_eq {s : State} (h : s.TrueClock) (d : Nat) :
    iters (tickNum s.clkhz.toNat) (tickDen s.clkhz.toNat) s.fudgeNum.toNat s.fudgeDen.toNat d =
      d * s.clkhz.toNat / (1000000000 * s.params.iterCycles.val) := by
  rw [iters_tick, h.divisor_eq, Nat.mul_div_mul_right _ _ h.fudgeNum_pos]

theorem State.TrueClock.itersUp_eq {s : State} (h : s.TrueClock) (d : Nat) :
    itersUp (tickNum s.clkhz.toNat) (tickDen s.clkhz.toNat) s.fudgeNum.toNat s.fudgeDen.toNat d =
      cdiv (d * s.clkhz.toNat) (1000000000 * s.params.iterCycles.val) := by
  rw [itersUp_tick h.clkhz_pos h.fudgeDen_pos, h.divisor_eq, cdiv_mul_right h.iterDivisor_pos h.fudgeNum_pos]

/-! ### What the counts last (R123 to R125) -/

/-- Settles O26: the ceiling is not below the exact quotient, which is the duration in iterations. -/
theorem latchLastsTheMinimum : Obligations.LatchLastsTheMinimum := by
  intro s hinv hl
  obtain ⟨-, -, -, -, num, den, -, -, -, -, rs⟩ := (hinv.calibrated hl).results
  rw [num, den]
  refine ⟨rs, fun hclock => hclock.le_wallTimeNs_iff.2 ?_⟩
  have hrs := rs.trans (hclock.itersUp_eq (s.params.resUs.toNat * 1000))
  calc s.params.resUs.toNat * 1000 * s.clkhz.toNat
      ≤ s.cntRes.toNat * (1000000000 * s.params.iterCycles.val) := hrs ▸ (cdiv_bounds _ _ hclock.iterDivisor_pos).1
    _ = s.cntRes.toNat * s.params.iterCycles.val * 1000000000 := by ring

/-- With the true clock the cycles of a floor last at most the duration, and less than one iteration less (R123). -/
theorem State.TrueClock.floor_lasts {s : State} (h : s.TrueClock) {d n : Nat}
    (hn : n = d * s.clkhz.toNat / (1000000000 * s.params.iterCycles.val)) :
    s.wallTimeNs (n * s.params.iterCycles.val) ≤ (d : Rat) ∧
      (d : Rat) - s.wallTimeNs s.params.iterCycles.val < s.wallTimeNs (n * s.params.iterCycles.val) := by
  obtain ⟨hle, hlt⟩ := floor_bounds (d * s.clkhz.toNat) _ h.iterDivisor_pos
  rw [← hn] at hle hlt
  constructor
  · rw [h.wallTimeNs_le_iff]
    calc n * s.params.iterCycles.val * 1000000000 = n * (1000000000 * s.params.iterCycles.val) := by ring
      _ ≤ d * s.clkhz.toNat := hle
  · rw [sub_lt_iff_lt_add, ← State.wallTimeNs_add, ← not_le, h.wallTimeNs_le_iff, not_le]
    calc d * s.clkhz.toNat < (n + 1) * (1000000000 * s.params.iterCycles.val) := hlt
      _ = (n * s.params.iterCycles.val + s.params.iterCycles.val) * 1000000000 := by ring

/-- The four pulse counts of a calibrated state (R124). -/
theorem State.Calibrated.pulseCount {s : State} (h : s.Calibrated) {d cnt : Word}
    (hmem : (d, cnt) ∈ [(s.params.t0hNs, s.cntT0h), (s.params.t0lNs, s.cntT0l), (s.params.t1hNs, s.cntT1h),
      (s.params.t1lNs, s.cntT1l)]) :
    cnt.toNat =
      iters (tickNum s.clkhz.toNat) (tickDen s.clkhz.toNat) s.fudgeNum.toNat s.fudgeDen.toNat d.toNat := by
  obtain ⟨-, -, -, -, -, -, h0, l0, h1, l1, -⟩ := h.results
  simp only [List.mem_cons, Prod.mk.injEq, List.not_mem_nil, or_false] at hmem
  obtain ⟨rfl, rfl⟩ | ⟨rfl, rfl⟩ | ⟨rfl, rfl⟩ | ⟨rfl, rfl⟩ := hmem
  · exact h0
  · exact l0
  · exact h1
  · exact l1

/-- Settles O27. -/
theorem pulseCountsAreFloors : Obligations.PulseCountsAreFloors := by
  intro s d cnt hinv hl hmem
  have hcal := hinv.calibrated hl
  obtain ⟨-, -, -, -, num, den, -⟩ := hcal.results
  have hcnt := hcal.pulseCount hmem
  rw [num, den]
  exact ⟨hcnt, fun hclock => hclock.floor_lasts (hcnt.trans (hclock.iters_eq d.toNat))⟩

end Sys2Proof.Machine
end

section
/-! PROOFS. One cycle of the sequencer: the branches of the cycle rule (R153), the end of each segment (R154), and the
outputs and STATUS in a cycle (R53, R163, R169). -/

namespace Sys2Proof.Machine

/-! ### The cycle (R153) -/

/-- The idle cycle uses up the host's gap. -/
theorem State.idleCycle_of_host {s : State} {x : HostItem} {rest : List HostItem} (h : s.host = x :: rest) :
    s.idleCycle = { s.spend with host := rest } := by
  rw [State.idleCycle, h, List.tail_cons]

/-- With nothing in the host's queue an idle cycle only spends the inputs. -/
theorem State.idleCycle_of_nil {s : State} (h : s.host = []) : s.idleCycle = s.spend := by
  rw [State.idleCycle, h, List.tail_nil, ← h]; rfl

/-- Settles O10: each branch is the lemma about its kind of cycle. -/
theorem stepFollowsTheCycleRule : Obligations.StepFollowsTheCycleRule := by
  rintro s u hr rfl
  refine ⟨fun r rest i hp hh hd => ?accept, fun rest hp hh => ?gap, fun hp hh => ?nothing, fun hp hs => ?stalled,
    fun hp hs hrem => ?counts, fun hp hs hrem => ?ends⟩
  case accept => rw [step_of_accept hr hp hh hd, State.acceptCycle_of_host hh]; rfl
  case gap => rw [step_of_idle hr hp (by simp [hh]), State.idleCycle_of_host hh]; rfl
  case nothing => rw [step_of_idle hr hp (by simp [hh]), State.idleCycle_of_nil hh]; rfl
  case stalled => exact step_of_stalled hr hp hs
  case counts =>
    refine ⟨_, step_of_counting hp hr hs hrem, rfl, ?_⟩
    show (s.rem - 1#40).toNat + 1 = s.rem.toNat
    bv_omega
  case ends => exact step_of_last hp hr hs (by rw [hrem]; rfl)

/-! ### The end of a segment (R154) -/

/-- SHIFT loses its first bit and takes a 0 at the other end. -/
theorem shiftOut_eq (v : Byte) : shiftOut v = v <<< 1 := by revert v; decide

theorem firstBit_shiftOut (v : Byte) : firstBit (shiftOut v) = v.getLsbD 6 := by
  rw [shiftOut_eq, firstBit]; simp

/-- A busy state of the invariant has cycles left (R49, R55 item 1). -/
theorem State.Inv.rem_pos {s : State} (h : s.Inv) (hp : s.phase ≠ .idle) : 0 < s.rem.toNat :=
  Nat.pos_of_ne_zero fun h0 => hp (h.idle_iff.2 (BitVec.eq_of_toNat_eq h0))

/-- Settles O11: the last cycle of a segment performs `segmentEnd`, read off phase by phase. -/
theorem segmentEndActions : Obligations.SegmentEndActions := by
  intro s hrem hr hs u result
  have ends {t : State} (hp : s.phase ≠ .idle) (he : segmentEnd s.spend = t) : step s = .next t :=
    he ▸ step_of_last hp hr hs (by rw [hrem]; rfl)
  refine ⟨fun hp k hk => ends (by simp [hp]) ?calibrated, fun hp c hc => ends (by simp [hp]) ?fatal,
    fun hp => ends (by simp [hp]) (segmentEnd_of_seti hp), fun hp => ends (by simp [hp]) (segmentEnd_of_seth hp),
    fun hp => ends (by simp [hp]) (segmentEnd_of_spinh hp), fun hp => ends (by simp [hp]) (segmentEnd_of_setl hp),
    fun hp hn => ends (by simp [hp]) ?nextBit, fun hp hn => ends (by simp [hp]) (segmentEnd_of_spinl_last hp hn),
    fun hp => ends (by simp [hp]) (segmentEnd_of_spinr hp),
    fun hinv hp => ⟨_, ends hp rfl, (step_inv hinv (ends hp rfl)).rem_pos⟩⟩
  case calibrated =>
    have hk' : s.spend.calibration = .ok k := hk
    rw [segmentEnd_of_calc (s := s.spend) hp, finishCal, hk']
    rfl
  case fatal =>
    have hc' : s.spend.calibration = .error c := hc
    rw [segmentEnd_of_calc (s := s.spend) hp, finishCal, hc']
    rfl
  case nextBit =>
    rw [segmentEnd_of_spinl_next (s := s.spend) hp hn, firstBit_shiftOut, shiftOut_eq]
    rfl

/-! ### Outputs and STATUS (R53, R163, R169) -/

theorem Phase.np_iff_mem (p : Phase) : p.np = true ↔ p ∈ [Phase.seti, .seth, .spinh, .setl, .spinl, .spinr] := by
  cases p <;> decide

/-- Settles O48. -/
theorem outputsFollowTheState : Obligations.OutputsFollowTheState := by
  intro s hr
  rw [State.outputs_np, State.outputs_reqReady, State.outputs_pin, State.outputs_pinOe, State.visible_eq hr]
  exact ⟨Phase.np_iff_mem s.phase, by simp [State.reqReady, hr], rfl, rfl, State.level_eq hr⟩

/-- Bit 4 of STATUS is PIN (R23). -/
theorem State.statusWord_getLsbD_four (s : State) : s.statusWord.getLsbD 4 = s.pin := by
  have fields : ∀ (oe pin : Bool) (lc : BitVec 2),
      (0#26 ++ BitVec.ofBool oe ++ BitVec.ofBool pin ++ 0#2 ++ lc).getLsbD 4 = pin := by decide
  exact fields s.pinOe s.pin s.lc.code

/-- Settles O47: the invariant has the pin high in SPINH and SETL only, and STATUS shows PIN in bit 4. -/
theorem idleLineIsLow : Obligations.IdleLineIsLow := by
  intro s hinv hp
  have hpin : s.pin = false := hinv.pin_low (by simp [hp])
  have hrd : exec (.rd 0x04#8) s = .next { s with resp := okWith s.statusWord } := exec_rd_offset .status s
  refine ⟨hpin, fun hl => ?_, fun t v ht hv => ?_⟩
  · have hword : s.statusWord = 0x22#32 := by
      rw [State.statusWord, hpin, hinv.driven_iff.2 hl, hl]; rfl
    rw [hrd, hword]; rfl
  · rw [hrd] at ht
    cases ht
    cases hv
    rw [State.statusWord_getLsbD_four, hpin]

end Sys2Proof.Machine
end

section
/-! PROOFS. Segments under stalls: REM counts the unstalled cycles only (R162), a segment ends with the unstalled cycle
that uses REM up (R153, R154), and so every command completes (R165). -/

namespace Sys2Proof.Machine

/-! ### Counting stalled cycles -/

theorem State.stallCount_one (s : State) : s.stallCount 1 = (s.stallAt 0).toNat := by
  rw [State.stallCount_succ, State.stallCount_zero, Nat.zero_add]

/-- One more cycle is one more unstalled cycle, unless it is stalled. -/
theorem State.unstalled_succ (s : State) (n : Nat) :
    n + 1 - s.stallCount (n + 1) = n - s.stallCount n + (1 - (s.stallAt n).toNat) := by
  have hle := s.stallCount_le n
  have hone := (s.stallAt n).toNat_le
  rw [State.stallCount_succ]
  omega

theorem State.NoStall.stallCount_eq_zero {s : State} {n : Nat} (h : s.NoStall 0 n) : s.stallCount n = 0 := by
  rw [State.stallCount, List.countP_eq_zero]
  intro k hk
  simp [h k (Nat.zero_le k) (List.mem_range.1 hk)]

/-- Where `r` cycles or more are unstalled, one of them is the `r`-th. -/
theorem State.exists_unstalled {s : State} {r n : Nat} (hr : 0 < r) (h : r ≤ n - s.stallCount n) :
    ∃ k < n, s.stallAt k = false ∧ k - s.stallCount k + 1 = r := by
  induction n with
  | zero => rw [State.stallCount_zero] at h; omega
  | succ n ih =>
    by_cases hn : r ≤ n - s.stallCount n
    · obtain ⟨k, hk, hrest⟩ := ih hn
      exact ⟨k, by omega, hrest⟩
    · rw [State.unstalled_succ] at h
      cases hs : s.stallAt n with
      | true => rw [hs, Bool.toNat_true] at h; omega
      | false => rw [hs, Bool.toNat_false] at h; exact ⟨n, by omega, hs, by omega⟩

/-! ### Inside a segment (R162) -/

/-- A cycle that does not use REM up changes nothing else, and REM only if it is unstalled. -/
theorem step_inside {s : State} (hp : s.phase ≠ .idle) (hr : s.rstAt 0 = false) (h : 1 - s.stallCount 1 < s.rem.toNat) :
    step s = .next { s.spend with rem := s.rem - BitVec.ofNat 40 (1 - s.stallCount 1) } := by
  rw [State.stallCount_one] at h ⊢
  cases hs : s.stallAt 0 with
  | true =>
    have hrem : s.rem - BitVec.ofNat 40 (1 - true.toNat) = s.rem := BitVec.sub_zero s.rem
    rw [step_of_stalled hr hp hs, hrem]; rfl
  | false => rw [hs] at h; exact step_of_counting hp hr hs h

/-- The state `n` cycles, one or more, later in a segment that does not end within them. -/
def State.inside (s : State) (n : Nat) : State :=
  { s.afterCycles n with rem := s.rem - BitVec.ofNat 40 (n - s.stallCount n) }

theorem State.inside_rem {s : State} {n : Nat} (h : n - s.stallCount n < s.rem.toNat) :
    (s.inside n).rem.toNat + (n - s.stallCount n) = s.rem.toNat := by
  show (s.rem - BitVec.ofNat 40 (n - s.stallCount n)).toNat + _ = _
  generalize n - s.stallCount n = d at h
  bv_omega

theorem State.inside_rstAt (s : State) (n k : Nat) : (s.inside n).rstAt k = s.rstAt (n + k) := s.afterCycles_rstAt n k

theorem State.inside_stallAt (s : State) (n k : Nat) : (s.inside n).stallAt k = s.stallAt (n + k) :=
  s.afterCycles_stallAt n k

theorem State.spend_inside (s : State) (n : Nat) :
    (s.inside n).spend = { s.afterCycles (n + 1) with rem := (s.inside n).rem } := by
  rw [← State.afterCycles_afterCycles s n 1, State.afterCycles_one]; rfl

/-- While the unstalled cycles do not use REM up, the segment goes on at its level (R153, R162). -/
theorem runFor_inside_stalled {s : State} {n : Nat} (hp : s.phase ≠ .idle) (hn : 0 < n) (hr : s.NoReset n)
    (h : n - s.stallCount n < s.rem.toNat) :
    runFor n s = .next (s.inside n) ∧ traceFor n s = List.replicate n (levelOf s.pinOe s.pin) := by
  induction n, hn using Nat.le_induction with
  | base =>
    have h1 := step_inside hp (hr 0 (by omega)) h
    refine ⟨by rw [runFor_one, h1, State.inside, State.afterCycles_one], ?_⟩
    rw [traceFor_succ_of h1, State.level_eq (hr 0 (by omega))]; rfl
  | succ n hn ih =>
    have hsucc := s.unstalled_succ n
    obtain ⟨a, b⟩ := ih (fun k hk => hr k (by omega)) (by omega)
    have hrst : (s.inside n).rstAt 0 = false := by rw [State.inside_rstAt]; exact hr n (by omega)
    have hcount : 1 - (s.inside n).stallCount 1 = 1 - (s.stallAt n).toNat := by
      rw [State.stallCount_one, State.inside_stallAt, Nat.add_zero]
    have hrem := State.inside_rem (s := s) (n := n) (by omega)
    rw [runFor_succ_end a, traceFor_succ_end a, step_inside (s := s.inside n) hp hrst (by omega),
      State.level_eq hrst, b, List.replicate_succ', State.spend_inside, hcount, State.inside, State.inside, hsucc]
    refine ⟨?_, rfl⟩
    generalize n - s.stallCount n = d
    generalize 1 - (s.stallAt n).toNat = e
    have hsub : s.rem - BitVec.ofNat 40 d - BitVec.ofNat 40 e = s.rem - BitVec.ofNat 40 (d + e) := by bv_omega
    simp only [hsub]

/-- Settles O33: `n` cycles that do not use REM up leave `State.inside`. -/
theorem stalledCyclesLengthenTheSegment : Obligations.StalledCyclesLengthenTheSegment := by
  intro s n hp hn hr h
  obtain ⟨hrun, htrace⟩ := runFor_inside_stalled hp hn hr h
  exact ⟨_, hrun, rfl, State.inside_rem h, htrace⟩

/-! ### A whole segment under stalls (R153, R154) -/

/-- `m` cycles from `s` to `t` at the level `l`: `r` of them are unstalled, the last one too. -/
structure Stretch (s : State) (l : Level) (r m : Nat) (t : State) : Prop where
  run : runFor m s = .next t
  trace : traceFor m s = List.replicate m l
  length : m = r + s.stallCount m
  pos : 0 < m
  last : s.stallAt (m - 1) = false

/-- The segment ends with the unstalled cycle that uses REM up. -/
theorem stretch_of_last {s : State} {k : Nat} (hp : s.phase ≠ .idle) (hr : s.NoReset (k + 1))
    (hlast : s.stallAt k = false) (hk : k - s.stallCount k + 1 = s.rem.toNat) :
    Stretch s (levelOf s.pinOe s.pin) s.rem.toNat (k + 1) (segmentEnd (s.afterCycles (k + 1))) := by
  have hle := s.stallCount_le k
  have hlength : k + 1 = s.rem.toNat + s.stallCount (k + 1) := by
    rw [State.stallCount_succ, hlast]; simp; omega
  rcases Nat.eq_zero_or_pos k with rfl | hpos
  · have h0 := step_of_last hp (hr 0 (by omega)) hlast (by omega)
    refine ⟨by rw [runFor_one, h0, State.afterCycles_one], ?_, hlength, by omega, hlast⟩
    rw [traceFor_succ_of h0, State.level_eq (hr 0 (by omega))]; rfl
  · obtain ⟨a, b⟩ := runFor_inside_stalled hp hpos (fun j hj => hr j (by omega)) (by omega)
    have hrst : (s.inside k).rstAt 0 = false := by rw [State.inside_rstAt]; exact hr k (by omega)
    have hstall : (s.inside k).stallAt 0 = false := by rw [State.inside_stallAt]; exact hlast
    have hrem := State.inside_rem (s := s) (n := k) (by omega)
    have hend := step_of_last (s := s.inside k) hp hrst hstall (by omega)
    refine ⟨?_, ?_, hlength, by omega, hlast⟩
    · rw [runFor_succ_end a, hend, State.spend_inside]
      exact congrArg _ (segmentEnd_congr (s := s.afterCycles (k + 1)) hp _ _)
    · rw [traceFor_succ_end a, b, State.level_eq hrst, List.replicate_succ']; rfl

/-- Either the segment ends within `n` cycles, or they have not enough unstalled cycles and it goes on. -/
theorem stretch_or_inside {s : State} {n : Nat} (hp : s.phase ≠ .idle) (hpos : 0 < s.rem.toNat) (hr : s.NoReset n) :
    (∃ m ≤ n, Stretch s (levelOf s.pinOe s.pin) s.rem.toNat m (segmentEnd (s.afterCycles m))) ∨
    (n - s.stallCount n < s.rem.toNat ∧ ∃ t, runFor n s = .next t ∧ t.phase = s.phase) := by
  by_cases h : n - s.stallCount n < s.rem.toNat
  · refine .inr ⟨h, ?_⟩
    rcases Nat.eq_zero_or_pos n with rfl | hn
    · exact ⟨s, rfl, rfl⟩
    · exact ⟨_, (runFor_inside_stalled hp hn hr h).1, rfl⟩
  · obtain ⟨k, hk, hlast, hcount⟩ := State.exists_unstalled hpos (Nat.not_lt.1 h)
    exact .inl ⟨k + 1, hk, stretch_of_last hp (fun j hj => hr j (by omega)) hlast hcount⟩

/-! ### The inputs along a run -/

theorem ExecTo.inputs {i : Instr} {s t : State} (h : ExecTo i s t) :
    t.rstPlan = s.rstPlan ∧ t.stallPlan = s.stallPlan ∧ t.tick = s.tick := by
  cases h <;> simp

/-- Every cycle uses up its inputs and no others (R57). -/
theorem step_inputs {s t : State} (h : step s = .next t) :
    t.rstPlan = s.spend.rstPlan ∧ t.stallPlan = s.spend.stallPlan ∧ t.tick = s.spend.tick := by
  rcases step_cases h with
    ⟨-, rfl⟩ | ⟨-, -, -, rfl⟩ | ⟨-, -, r, rest, i, -, -, he⟩ | ⟨-, -, -, rfl⟩ | ⟨-, -, -, rfl⟩
  · exact ⟨rfl, rfl, rfl⟩
  · exact ⟨rfl, rfl, rfl⟩
  · exact (exec_cases he).inputs
  · exact ⟨rfl, rfl, rfl⟩
  · rcases busyCycle_cases s.spend with ⟨-, he⟩ | ⟨-, he⟩ <;> rw [he]
    · exact ⟨rfl, rfl, rfl⟩
    · exact segmentEnd_inputs s.spend

theorem runFor_inputs {m : Nat} {s t : State} (h : runFor m s = .next t) (k : Nat) :
    t.rstAt k = s.rstAt (m + k) ∧ t.stallAt k = s.stallAt (m + k) := by
  induction m generalizing s with
  | zero => cases h; simp
  | succ m ih =>
    obtain ⟨u, hu, hrest⟩ := runFor_split (Nat.add_comm m 1 ▸ h)
    obtain ⟨hrst, hstall, htick⟩ := step_inputs (runFor_one s ▸ hu)
    obtain ⟨hr, hs⟩ := ih hrest
    rw [hr, hs, State.rstAt_congr hrst htick, State.stallAt_congr hstall htick, State.spend_rstAt, State.spend_stallAt,
      Nat.add_right_comm]
    exact ⟨rfl, rfl⟩

theorem State.NoReset.after {s t : State} {m n : Nat} (hr : s.NoReset (m + n)) (h : runFor m s = .next t) :
    t.NoReset n :=
  hr.of_inputs fun k => (runFor_inputs h k).1

theorem stallCount_after {s t : State} {m : Nat} (h : runFor m s = .next t) (n : Nat) :
    s.stallCount (m + n) = s.stallCount m + t.stallCount n :=
  State.stallCount_add n fun k => (runFor_inputs h k).2

/-! ### Every command completes (R165) -/

/-- The segments left of the command that runs, the current one included: four for each bit (R154). -/
def State.segmentsLeft (s : State) : Nat :=
  match s.phase with
  | .idle => 0
  | .calculate => 1
  | .seti => 1
  | .seth => 4 * s.nbits.toNat + 4
  | .spinh => 4 * s.nbits.toNat + 3
  | .setl => 4 * s.nbits.toNat + 2
  | .spinl => 4 * s.nbits.toNat + 1
  | .spinr => 1

theorem State.segmentsLeft_le (s : State) : s.segmentsLeft ≤ 32 := by
  have hn := s.nbits.isLt
  unfold State.segmentsLeft
  split <;> omega

/-- The end of a segment leaves one segment less. -/
theorem SegmentEndTo.segmentsLeft {s t : State} (h : SegmentEndTo s t) (hp : s.phase ≠ .idle) :
    t.segmentsLeft + 1 = s.segmentsLeft := by
  cases h with
  | idle hidle => exact absurd hidle hp
  | next hspinl hn =>
    have hnb : (s.nbits - 1#3).toNat + 1 = s.nbits.toNat := by bv_omega
    simp only [State.segmentsLeft, hspinl, State.startPulses_phase, State.startPulses_nbits]
    omega
  | last hspinl hn => simp [State.segmentsLeft, hspinl, hn]
  | _ => simp [State.segmentsLeft, *]

/-- With unstalled cycles for all the segments left, the sequencer gets through them to IDLE. -/
theorem exists_idle {s : State} {n : Nat} (hinv : s.Inv) (hr : s.NoReset n)
    (h : s.segmentsLeft * Params.maxRem ≤ n - s.stallCount n) :
    ∃ k t, k ≤ n ∧ runFor k s = .next t ∧ t.phase = .idle := by
  generalize hleft : s.segmentsLeft = c at h
  induction c generalizing s n with
  | zero =>
    refine ⟨0, s, Nat.zero_le n, rfl, ?_⟩
    cases hp : s.phase <;> simp [State.segmentsLeft, hp] at hleft ⊢
  | succ c ih =>
    by_cases hp : s.phase = .idle
    · exact ⟨0, s, Nat.zero_le n, rfl, hp⟩
    · have hrem := hinv.rem_le
      rw [Nat.succ_mul] at h
      rcases stretch_or_inside hp (hinv.rem_pos hp) hr with ⟨m, hm, hseg⟩ | ⟨hlt, -⟩
      · obtain ⟨d, rfl⟩ := Nat.exists_eq_add_of_le hm
        have hcount := stallCount_after hseg.run d
        have hlength := hseg.length
        have hle := (segmentEnd (s.afterCycles m)).stallCount_le d
        have hnext := (segmentEnd_cases (s.afterCycles m)).segmentsLeft hp
        have hrest : c * Params.maxRem ≤ d - (segmentEnd (s.afterCycles m)).stallCount d := by
          generalize c * Params.maxRem = rest at h ⊢
          generalize Params.maxRem = bound at h hrem
          omega
        obtain ⟨k, t, hk, hrun, hidle⟩ := ih (n := d) (runFor_inv hinv hseg.run) (hr.after hseg.run)
          (Nat.succ.inj (hnext.trans hleft)) hrest
        exact ⟨m + k, t, by omega, (runFor_add hseg.run k).trans hrun, hidle⟩
      · generalize c * Params.maxRem = rest at h
        omega

/-- Settles O36: at most 32 segments are left, each of at most `Params.maxRem` unstalled cycles. -/
theorem everyCommandCompletes : Obligations.EveryCommandCompletes :=
  fun s _ hinv hr h => exists_idle hinv hr ((Nat.mul_le_mul_right _ s.segmentsLeft_le).trans h)

end Sys2Proof.Machine
end

section
/-! PROOFS. Commands of one segment: `INIT` (R155) and `LATCH` (R158) from acceptance to response. -/

namespace Sys2Proof.Machine

theorem setLength_fitsRem_of_inRange {s : State} (h : s.params.InRange) : FitsRem s.setLength :=
  ⟨h.set, (Nat.le_of_lt_succ s.params.setCycles.isLt).trans (by decide)⟩

/-- In READY with PHASE IDLE the line is driven low (R169). -/
theorem State.Inv.level_low {s : State} (h : s.Inv) (hl : s.lc = .ready) (hp : s.phase ≠ .spinh ∧ s.phase ≠ .setl) :
    levelOf s.pinOe s.pin = .low := by
  rw [h.driven_iff.2 hl, h.pin_low hp]; rfl

/-- A command of one segment of `r` cycles, without stalls: its end, its level, and PHASE and `np` until then. -/
theorem runFor_single_segment {s u : State} {r : Nat} (hstep : step s = .next u) (hp : u.phase ≠ .idle)
    (hrem : u.rem.toNat = r) (hpos : 0 < r) (hr : s.NoReset (1 + r)) (hs : s.NoStall 1 (1 + r)) :
    runFor (1 + r) s = .next (segmentEnd (u.afterCycles r)) ∧
    traceFor (1 + r) s = levelOf s.pinOe s.pin :: List.replicate r (levelOf u.pinOe u.pin) ∧
    ∀ k, 0 < k → k < 1 + r → ∃ v, runFor k s = .next v ∧ v.phase = u.phase ∧ v.outputs.np = u.phase.np := by
  have hrun : runFor 1 s = .next u := (runFor_one s).trans hstep
  obtain ⟨hend, htrace⟩ := runFor_segment_after r hrun hp hrem hpos Nat.one_pos (fun k => (runFor_inputs hrun k).1)
    (fun k => (runFor_inputs hrun k).2) hr hs
  refine ⟨hend, ?_, fun k hk hlt => ?_⟩
  · rw [htrace, traceFor_succ_of hstep, State.level_eq (hr 0 (by omega))]; rfl
  · obtain ⟨j, rfl⟩ := Nat.exists_eq_add_of_le hk
    have hrj : u.NoReset j := fun i hi => (runFor_inputs hrun i).1.trans (hr _ (by omega))
    rcases stretch_or_inside hp (hrem.symm ▸ hpos) hrj with ⟨m, hm, hseg⟩ | ⟨-, v, hv, hphase⟩
    · have hlength := hseg.length
      omega
    · have hvrun : runFor (1 + j) s = .next v := (runFor_add hrun j).trans hv
      have hrst : v.rstAt 0 = false := (runFor_inputs hvrun 0).1.trans (hr _ hlt)
      refine ⟨v, hvrun, hphase, ?_⟩
      rw [State.outputs_np, State.visible_eq hrst, hphase]

/-- Settles O28: one SETI segment, whose end drives the line low. -/
theorem initDrivesTheLineLow : Obligations.InitDrivesTheLineLow := by
  intro s rest n hrange ha hl hrem hn hr hs
  obtain rfl : n = 1 + s.setLength := hn
  have hfits := setLength_fitsRem_of_inRange hrange
  have hstep : step s = .next (State.startSegment { s.spend with host := rest } .seti s.setLength) :=
    (ha.step_eq rfl).trans (if_pos hl)
  obtain ⟨hrun, htrace, hduring⟩ := runFor_single_segment hstep (by simp) hfits.toNat_ofNat hfits.1 hr hs
  refine ⟨?_, fun k hk hlt => hduring k hk hlt, ?_⟩
  · rw [hrun, segmentEnd_of_seti rfl, ← State.afterCycles_afterCycles s 1, State.afterCycles_one]
    simp only [finishInit, State.complete, State.startSegment, State.afterCycles, State.spend, okWith, ha.1, hrem]
  · rw [htrace, Nat.add_comm, List.replicate_succ]; rfl

/-- Settles O31: one SPINR segment, whose end only answers. -/
theorem latchHoldsTheLineLow : Obligations.LatchHoldsTheLineLow := by
  intro s rest n hinv ha hl hn hr hs
  obtain rfl : n = 1 + s.spinLength s.cntRes := hn
  obtain ⟨-, -, -, -, hres⟩ := (hinv.calibrated (.inr hl)).counts_pos hinv.params
  have hfits := hinv.spinLength_fitsRem hres
  have hlow := hinv.level_low hl (by simp [ha.1])
  have hrem := hinv.idle_iff.1 ha.1
  have hstep : step s = .next (State.startSegment { s.spend with host := rest } .spinr (s.spinLength s.cntRes)) :=
    (ha.step_eq rfl).trans (if_pos hl)
  obtain ⟨hrun, htrace, hduring⟩ := runFor_single_segment hstep (by simp) hfits.toNat_ofNat hfits.1 hr hs
  refine ⟨?_, ?_, fun k hk hlt => hduring k hk hlt⟩
  · rw [hrun, segmentEnd_of_spinr rfl, ← State.afterCycles_afterCycles s 1, State.afterCycles_one]
    simp only [State.complete, State.startSegment, State.afterCycles, State.spend, okWith, ha.1, hrem]
  · rw [htrace, Nat.add_comm, List.replicate_succ, ← hlow]; rfl

end Sys2Proof.Machine
end

section
/-! PROOFS. Chains of segments: what a command emits under any stalls is its segments, each lengthened by the stalled
cycles that fall in it (R156, R157, R162); without stalls, its trace to the cycle (R161). -/

namespace Sys2Proof.Machine

/-! ### Chains of segments -/

/-- A segment as the trace shows it: CURBIT while it lasts, its level, and its unstalled cycles. -/
structure Segment where
  bit : Bool
  level : Level
  length : Nat

/-- The unstalled cycles of a list of segments. -/
def totalLength (gs : List Segment) : Nat := (gs.map Segment.length).sum

/-- The trace of a list of segments without stalls. -/
def segmentTrace (gs : List Segment) : List Level := gs.flatMap fun g => List.replicate g.length g.level

/-- `m` cycles from `s` to `t` are the segments `gs`, one after another. -/
inductive Chain : State → List Segment → Nat → State → Prop where
  | nil (s : State) : Chain s [] 0 s
  | cons {s u t : State} {g : Segment} {gs : List Segment} {m n : Nat} (hbit : s.curbit = g.bit)
      (hseg : Stretch s g.level g.length m u) (hrest : Chain u gs n t) : Chain s (g :: gs) (m + n) t

theorem Chain.run {s t : State} {gs : List Segment} {m : Nat} (h : Chain s gs m t) : runFor m s = .next t := by
  induction h with
  | nil s => rfl
  | cons hbit hseg hrest ih => exact (runFor_add hseg.run _).trans ih

theorem Chain.length_eq {s t : State} {gs : List Segment} {m : Nat} (h : Chain s gs m t) :
    m = totalLength gs + s.stallCount m := by
  induction h with
  | nil s => rfl
  | @cons s u t g gs m n hbit hseg hrest ih =>
    have hsplit := stallCount_after hseg.run n
    have hlength := hseg.length
    have htotal : totalLength (g :: gs) = g.length + totalLength gs := rfl
    omega

theorem Chain.trace_of_noStall {s t : State} {gs : List Segment} {m : Nat} (h : Chain s gs m t) (hs : s.NoStall 0 m) :
    traceFor m s = segmentTrace gs := by
  induction h with
  | nil s => rfl
  | @cons s u t g gs m n hbit hseg hrest ih =>
    have hlength : m = g.length := by
      have hnone : s.stallCount m = 0 := State.NoStall.stallCount_eq_zero fun k h0 hk => hs k h0 (by omega)
      rw [hseg.length, hnone, Nat.add_zero]
    rw [traceFor_add hseg.run, hseg.trace, ih (hs.of_inputs (Nat.zero_le m) fun k => (runFor_inputs hseg.run k).2),
      hlength]
    rfl

/-! ### Unstalled and stalled cycles of a chain (R162) -/

theorem traceFor_length {m : Nat} {s t : State} (h : runFor m s = .next t) : (traceFor m s).length = m := by
  induction m generalizing s with
  | zero => rfl
  | succ m ih =>
    obtain ⟨u, hu, hrest⟩ := runFor_split (Nat.add_comm m 1 ▸ h)
    rw [traceFor_succ_of (runFor_one s ▸ hu), List.length_cons, ih hrest]

/-- The trace of `n` cycles with the stalled ones left out. -/
def State.unstalledTrace (s : State) (n : Nat) : List Level :=
  ((List.range n).filter fun k => !s.stallAt k).filterMap fun k => (traceFor n s)[k]?

theorem unstalledTrace_add {m : Nat} {s t : State} (h : runFor m s = .next t) (n : Nat) :
    s.unstalledTrace (m + n) = s.unstalledTrace m ++ t.unstalledTrace n := by
  have hlen := traceFor_length h
  unfold State.unstalledTrace
  rw [List.range_add, List.filter_append, List.filterMap_append, List.filter_map, List.filterMap_map, traceFor_add h]
  congr 1
  · refine List.filterMap_congr fun k hk => List.getElem?_append_left ?_
    rw [hlen]; exact List.mem_range.1 (List.mem_of_mem_filter hk)
  · have hstall : (fun k => !s.stallAt k) ∘ (m + ·) = fun k => !t.stallAt k :=
      funext fun k => congrArg _ (runFor_inputs h k).2.symm
    rw [hstall]
    refine List.filterMap_congr fun k _ => ?_
    rw [Function.comp_apply, List.getElem?_append_right (by omega), hlen, Nat.add_sub_cancel_left]

theorem State.length_unstalled (s : State) (n : Nat) :
    ((List.range n).filter fun k => !s.stallAt k).length + s.stallCount n = n := by
  have h := List.length_eq_countP_add_countP s.stallAt (l := List.range n)
  rw [List.length_range, ← State.stallCount] at h
  rw [← List.countP_eq_length_filter]
  simp only [Bool.not_eq_true, Bool.decide_eq_false] at h
  omega

theorem Stretch.unstalledTrace {s t : State} {l : Level} {r m : Nat} (h : Stretch s l r m t) :
    s.unstalledTrace m = List.replicate r l := by
  have hlength := h.length
  have hcount := s.length_unstalled m
  rw [State.unstalledTrace, h.trace, List.eq_replicate_iff]
  have hall : ∀ k ∈ (List.range m).filter fun k => !s.stallAt k, (List.replicate m l)[k]? = some l := fun k hk =>
    List.getElem?_replicate_of_lt (List.mem_range.1 (List.mem_of_mem_filter hk))
  rw [List.filterMap_congr hall]
  simp; omega

/-- The unstalled cycles of a chain show the trace without stalls. -/
theorem Chain.unstalledTrace {s t : State} {gs : List Segment} {m : Nat} (h : Chain s gs m t) :
    s.unstalledTrace m = segmentTrace gs := by
  induction h with
  | nil s => rfl
  | cons hbit hseg hrest ih => rw [unstalledTrace_add hseg.run, hseg.unstalledTrace, ih]; rfl

/-- A stalled cycle of a chain has a successor in its segment, and so its level. -/
theorem Chain.stalled_holds {s t : State} {gs : List Segment} {m : Nat} (h : Chain s gs m t) {k : Nat} (hk : k < m)
    (hs : s.stallAt k = true) : k + 1 < m ∧ (traceFor m s)[k]? = (traceFor m s)[k + 1]? := by
  induction h generalizing k with
  | nil s => omega
  | @cons s u t g gs m n hbit hseg hrest ih =>
    have hlen := traceFor_length hseg.run
    rw [traceFor_add hseg.run]
    by_cases hin : k < m
    · have hne : k ≠ m - 1 := fun heq => by rw [heq, hseg.last] at hs; cases hs
      rw [List.getElem?_append_left (by omega), List.getElem?_append_left (by omega), hseg.trace,
        List.getElem?_replicate_of_lt hin, List.getElem?_replicate_of_lt (by omega)]
      exact ⟨by omega, rfl⟩
    · obtain ⟨j, rfl⟩ := Nat.exists_eq_add_of_le (Nat.not_lt.1 hin)
      obtain ⟨hlt, hlevel⟩ := ih (k := j) (by omega) ((runFor_inputs hseg.run j).2.trans hs)
      rw [List.getElem?_append_right (by omega), List.getElem?_append_right (by omega), hlen, Nat.add_sub_cancel_left,
        Nat.add_assoc, Nat.add_sub_cancel_left]
      exact ⟨by omega, hlevel⟩

/-! ### States that lead through a chain -/

/-- Any `n` cycles from `s` without reset either hold the whole chain `gs`, to a state with `P`, or have too few
unstalled cycles for it and end in the middle, with PHASE not IDLE. -/
def State.Leads (s : State) (gs : List Segment) (P : Nat → State → Prop) : Prop :=
  ∀ n, s.NoReset n →
    (∃ m ≤ n, ∃ t, Chain s gs m t ∧ P m t) ∨
    (n - s.stallCount n < totalLength gs ∧ ∃ t, runFor n s = .next t ∧ t.phase ≠ .idle)

theorem State.Leads.nil {s : State} {P : Nat → State → Prop} (h : P 0 s) : s.Leads [] P :=
  fun n _ => .inl ⟨0, Nat.zero_le n, s, .nil s, h⟩

/-- A segment that starts leads on to whatever its end leads to. -/
theorem State.Leads.cons {s : State} {b : Bool} {l : Level} {r : Nat} {gs : List Segment} {P : Nat → State → Prop}
    (hp : s.phase ≠ .idle) (hbit : s.curbit = b) (hlevel : levelOf s.pinOe s.pin = l) (hrem : s.rem = BitVec.ofNat 40 r)
    (hfits : FitsRem r) (hrest : ∀ m, (segmentEnd (s.afterCycles m)).Leads gs fun k t => P (m + k) t) :
    s.Leads (⟨b, l, r⟩ :: gs) P := by
  intro n hr
  have hr' : s.rem.toNat = r := hrem ▸ hfits.toNat_ofNat
  have htotal : totalLength (⟨b, l, r⟩ :: gs) = r + totalLength gs := rfl
  rcases stretch_or_inside hp (hr' ▸ hfits.1) hr with ⟨m, hm, hseg⟩ | ⟨hlt, t, hrun, hphase⟩
  · rw [hlevel, hr'] at hseg
    obtain ⟨d, rfl⟩ := Nat.exists_eq_add_of_le hm
    rcases hrest m d (hr.after hseg.run) with ⟨k, hk, t, hchain, ht⟩ | ⟨hlt, t, hrun, hphase⟩
    · exact .inl ⟨m + k, by omega, t, .cons hbit hseg hchain, ht⟩
    · have hcount := stallCount_after hseg.run d
      have hlength := hseg.length
      exact .inr ⟨by omega, t, (runFor_add hseg.run d).trans hrun, hphase⟩
  · exact .inr ⟨by omega, t, hrun, hphase ▸ hp⟩

theorem State.Leads.mono {s : State} {gs : List Segment} {P Q : Nat → State → Prop} (h : s.Leads gs P)
    (hPQ : ∀ m t, P m t → Q m t) : s.Leads gs Q :=
  fun n hr => (h n hr).imp_left fun ⟨m, hm, t, hchain, ht⟩ => ⟨m, hm, t, hchain, hPQ m t ht⟩

/-- Until the chain can be over PHASE is not IDLE. -/
theorem State.Leads.busy_before {s : State} {gs : List Segment} {P : Nat → State → Prop} (h : s.Leads gs P) {k : Nat}
    (hr : s.NoReset k) (hk : k < totalLength gs) : ∃ t, runFor k s = .next t ∧ t.phase ≠ .idle := by
  rcases h k hr with ⟨m, hm, t, hchain, -⟩ | ⟨-, hbusy⟩
  · have hlength := hchain.length_eq
    omega
  · exact hbusy

/-- Without stalls the chain takes its unstalled cycles. -/
theorem State.Leads.chain_of_noStall {s : State} {gs : List Segment} {P : Nat → State → Prop} (h : s.Leads gs P)
    (hr : s.NoReset (totalLength gs)) (hs : s.NoStall 0 (totalLength gs)) :
    ∃ t, Chain s gs (totalLength gs) t ∧ P (totalLength gs) t := by
  rcases h _ hr with ⟨m, hm, t, hchain, ht⟩ | ⟨hlt, -⟩
  · have hlength := hchain.length_eq
    obtain rfl : m = totalLength gs := by omega
    exact ⟨t, hchain, ht⟩
  · have hnone := hs.stallCount_eq_zero
    omega

/-- A run that ends in IDLE holds the whole chain. -/
theorem State.Leads.chain_of_idle {s t : State} {gs : List Segment} {P : Nat → State → Prop} {n : Nat}
    (h : s.Leads gs P) (hr : s.NoReset n) (hrun : runFor n s = .next t) (hidle : t.phase = .idle) :
    ∃ m ≤ n, ∃ u, Chain s gs m u ∧ P m u := by
  rcases h n hr with hchain | ⟨-, v, hv, hbusy⟩
  · exact hchain
  · rw [hrun] at hv; cases hv
    exact absurd hidle hbusy

end Sys2Proof.Machine
end

section
/-! PROOFS. Pulse commands: a bit is a chain of four segments (R154, R156), a `BYTE` the chains of its eight bits
(R157). -/

namespace Sys2Proof.Machine

/-! ### One bit (R154) -/

/-- The segments of a bit: SETH low, SPINH and SETL high, SPINL low. -/
def State.pulseSegments (s : State) (b : Bool) : List Segment :=
  [⟨b, .low, s.setLength⟩, ⟨b, .high, s.spinLength (s.highCount b)⟩, ⟨b, .high, s.setLength⟩,
    ⟨b, .low, s.spinLength (s.lowCount b)⟩]

/-- The segments of bits sent back to back. -/
def State.pulses (s : State) (bs : List Bool) : List Segment := bs.flatMap s.pulseSegments

theorem State.pulses_cons (s : State) (b : Bool) (bs : List Bool) :
    s.pulses (b :: bs) = s.pulseSegments b ++ s.pulses bs := rfl

theorem totalLength_append (gs hs : List Segment) : totalLength (gs ++ hs) = totalLength gs + totalLength hs := by
  simp [totalLength]

theorem State.totalLength_pulseSegments (s : State) (b : Bool) : totalLength (s.pulseSegments b) = s.bitLength b := by
  simp only [totalLength, State.pulseSegments, List.map_cons, List.map_nil, List.sum_cons, List.sum_nil,
    State.bitLength]
  omega

theorem State.totalLength_pulses (s : State) (bs : List Bool) :
    totalLength (s.pulses bs) = (bs.map s.bitLength).sum := by
  induction bs with
  | nil => rfl
  | cons b bs ih =>
    rw [State.pulses_cons, totalLength_append, State.totalLength_pulseSegments, ih, List.map_cons, List.sum_cons]

theorem State.segmentTrace_pulseSegments (s : State) (b : Bool) : segmentTrace (s.pulseSegments b) = s.bitTrace b := by
  simp only [segmentTrace, State.pulseSegments, List.flatMap_cons, List.flatMap_nil, State.bitTrace, State.highLength,
    List.replicate_add, List.append_nil, List.append_assoc]

theorem State.segmentTrace_pulses (s : State) (bs : List Bool) :
    segmentTrace (s.pulses bs) = bs.flatMap s.bitTrace := by
  rw [segmentTrace, State.pulses, List.flatMap_assoc]
  exact congrArg bs.flatMap (funext s.segmentTrace_pulseSegments)

/-- A later segment of the command that runs in `s`, started after `m` cycles. -/
def State.segmentAfter (s : State) (m : Nat) (pin : Bool) (p : Phase) (r : Nat) : State :=
  State.startSegment { s.afterCycles m with pin := pin } p r

theorem State.segmentAfter_afterCycles (s : State) (m k : Nat) (pin : Bool) (p : Phase) (r : Nat) :
    (s.segmentAfter m pin p r).afterCycles k = s.segmentAfter (m + k) pin p r := by
  rw [State.segmentAfter, State.segmentAfter, ← State.afterCycles_afterCycles]; rfl

theorem State.segmentAfter_level {s : State} (h : s.pinOe = true) (m : Nat) (pin : Bool) (p : Phase) (r : Nat) :
    levelOf (s.segmentAfter m pin p r).pinOe (s.segmentAfter m pin p r).pin = if pin then .high else .low := by
  change levelOf s.pinOe pin = _
  rw [h]; rfl

/-- What the end of the current bit leaves after `m` cycles. -/
def State.pulseDone (s : State) (m : Nat) : State :=
  segmentEnd (s.segmentAfter m false .spinl (s.spinLength (s.lowCount s.curbit)))

/-- A set-high that starts leads through the four segments of its bit, and on to what its end leads to. -/
theorem pulse_leads {s : State} {gs : List Segment} {P : Nat → State → Prop} (hinv : s.Inv) (hp : s.phase = .seth)
    (hrem : s.rem = BitVec.ofNat 40 s.setLength) (hrest : ∀ m, (s.pulseDone m).Leads gs fun k t => P (m + k) t) :
    s.Leads (s.pulseSegments s.curbit ++ gs) P := by
  have hl : s.lc = .ready := hinv.pulse_lc (by simp [hp])
  have hoe : s.pinOe = true := hinv.driven_iff.2 hl
  have hset := hinv.setLength_fitsRem
  refine .cons (by simp [hp]) rfl (hinv.level_low hl (by simp [hp])) hrem hset fun m₁ => ?_
  rw [segmentEnd_of_seth (s := s.afterCycles m₁) hp]
  change State.Leads (s.segmentAfter m₁ true .spinh _) _ _
  refine .cons (by simp [State.segmentAfter]) rfl (s.segmentAfter_level hoe ..) rfl
    (hinv.spinLength_fitsRem (hinv.highCount_pos hl s.curbit)) fun m₂ => ?_
  rw [State.segmentAfter_afterCycles, segmentEnd_of_spinh rfl]
  change State.Leads (s.segmentAfter (m₁ + m₂) true .setl s.setLength) _ _
  refine .cons (by simp [State.segmentAfter]) rfl (s.segmentAfter_level hoe ..) rfl
    hset fun m₃ => ?_
  rw [State.segmentAfter_afterCycles, segmentEnd_of_setl rfl]
  change State.Leads (s.segmentAfter (m₁ + m₂ + m₃) false .spinl (s.spinLength (s.lowCount s.curbit))) _ _
  refine .cons (by simp [State.segmentAfter]) rfl (s.segmentAfter_level hoe ..) rfl
    (hinv.spinLength_fitsRem (hinv.lowCount_pos hl s.curbit)) fun m₄ => ?_
  rw [State.segmentAfter_afterCycles]
  change State.Leads _ gs _
  simpa only [Nat.add_assoc, State.pulseDone] using hrest (m₁ + m₂ + m₃ + m₄)

theorem State.with_pin_self {s : State} {b : Bool} (h : s.pin = b) : { s with pin := b } = s := by subst h; rfl

/-- The last bit completes the command. -/
theorem State.pulseDone_last {s : State} (hpin : s.pin = false) (hn : s.nbits = 0#3) (m : Nat) :
    s.pulseDone m = (s.afterCycles m).complete := by
  rw [State.pulseDone, State.segmentAfter, State.with_pin_self (s := s.afterCycles m) hpin]
  exact segmentEnd_of_spinl_last rfl hn

/-- Any other bit starts the next set-high. -/
theorem State.pulseDone_next {s : State} (hpin : s.pin = false) (hn : s.nbits ≠ 0#3) (m : Nat) :
    s.pulseDone m =
      (s.afterCycles m).startPulses (firstBit (shiftOut s.shift)) (shiftOut s.shift) (s.nbits - 1#3) := by
  rw [State.pulseDone, State.segmentAfter, State.with_pin_self (s := s.afterCycles m) hpin]
  exact segmentEnd_of_spinl_next rfl hn

/-! ### The bits still to send (R50) -/

/-- The bits of a pulse command from the current one on: CURBIT, then `k` more out of SHIFT. -/
def pendingBits : Nat → Byte → Bool → List Bool
  | 0, _, b => [b]
  | k + 1, v, b => b :: pendingBits k (shiftOut v) (firstBit (shiftOut v))

/-- `BYTE v` sends its bits in wire order (R157). -/
theorem pendingBits_byte (v : Byte) : pendingBits 7 v (firstBit v) = wireBits v := by revert v; decide

/-- What a pulse command started in `s` leaves after `m` cycles: only CURBIT, SHIFT and NBITS may differ, and the
answer is OK. -/
def State.Sent (s : State) (m : Nat) (t : State) : Prop :=
  t = State.complete { s.afterCycles m with curbit := t.curbit, shift := t.shift, nbits := t.nbits }

theorem lastBit_leads {s : State} (hinv : s.Inv) (hp : s.phase = .seth) (hrem : s.rem = BitVec.ofNat 40 s.setLength)
    (hn : s.nbits = 0#3) : s.Leads (s.pulses [s.curbit]) fun m t => t = (s.afterCycles m).complete :=
  pulse_leads hinv hp hrem fun m => .nil (State.pulseDone_last (hinv.pin_low (by simp [hp])) hn m)

/-- A set-high that starts leads through all the bits still to send. -/
theorem pendingBits_lead {s : State} (hinv : s.Inv) (hp : s.phase = .seth)
    (hrem : s.rem = BitVec.ofNat 40 s.setLength) :
    s.Leads (s.pulses (pendingBits s.nbits.toNat s.shift s.curbit)) s.Sent := by
  have hl : s.lc = .ready := hinv.pulse_lc (by simp [hp])
  have hpin : s.pin = false := hinv.pin_low (by simp [hp])
  generalize hk : s.nbits.toNat = k
  induction k generalizing s with
  | zero =>
    have hn : s.nbits = 0#3 := BitVec.eq_of_toNat_eq hk
    exact (lastBit_leads hinv hp hrem hn).mono fun m t ht => ht ▸ rfl
  | succ k ih =>
    have hn : s.nbits ≠ 0#3 := fun h => by rw [h] at hk; cases hk
    refine pulse_leads hinv hp hrem fun m => ?_
    rw [State.pulseDone_next hpin hn]
    have hm : (s.afterCycles m).Inv := hinv.with_unconstrained _ _ _ _ _ _ _
    have hlead := ih (s := (s.afterCycles m).startPulses (firstBit (shiftOut s.shift)) (shiftOut s.shift)
      (s.nbits - 1#3)) (hm.startPulses hl hpin fun _ => rfl) rfl rfl hl hpin
      (by rw [State.startPulses_nbits]; bv_omega)
    refine hlead.mono fun k t ht => ?_
    unfold State.Sent
    rw [← State.afterCycles_afterCycles]
    exact ht

/-! ### Acceptance of a pulse command (R156, R157) -/

/-- The bits an operation sends, in wire order. -/
def pulseBits : Instr → List Bool
  | .rd _ => []
  | .wr _ _ => []
  | .cal => []
  | .init => []
  | .conv => []
  | .bit b => [b]
  | .byte v => wireBits v
  | .latch => []

theorem State.Accepts.step {s : State} {i : Instr} {rest : List HostItem} (h : s.Accepts i rest)
    (hi : i.wellFormed = true) : step s = exec i s.acceptCycle :=
  step_of_accept h.2.2 h.1 h.2.1 (decode_encode hi)

/-- A `BIT` accepted in READY leads through its bit (R156). -/
theorem accept_bit {s : State} {b : Bool} {rest : List HostItem} (hinv : s.Inv) (ha : s.Accepts (.bit b) rest)
    (hl : s.lc = .ready) :
    ∃ u, step s = .next u ∧ u.Leads (s.pulses [b]) fun m t =>
      t = State.complete { s.acceptCycle.afterCycles m with curbit := b, shift := 0#8, nbits := 0#3 } :=
  have hu := hinv.acceptCycle.startPulses (b := b) (v := 0#8) (m := 0#3) hl (hinv.pin_low (by simp [ha.1])) (by simp)
  ⟨_, (ha.step rfl).trans (if_pos hl), lastBit_leads hu rfl rfl rfl⟩

/-- A pulse command accepted in READY leads through the bits it sends. -/
theorem accept_pulse {s : State} {i : Instr} {rest : List HostItem} (hinv : s.Inv) (ha : s.Accepts i rest)
    (hl : s.lc = .ready) (hi : isPulse i = true) :
    ∃ u, step s = .next u ∧ u.Leads (s.pulses (pulseBits i)) s.acceptCycle.Sent := by
  cases i with
  | bit b =>
    obtain ⟨u, hstep, hlead⟩ := accept_bit hinv ha hl
    exact ⟨u, hstep, hlead.mono fun m t ht => ht ▸ rfl⟩
  | byte v =>
    have hu := hinv.acceptCycle.startPulses (b := firstBit v) (v := v) (m := 7#3) hl
      (hinv.pin_low (by simp [ha.1])) fun _ => rfl
    refine ⟨_, (ha.step rfl).trans (if_pos hl), ?_⟩
    rw [pulseBits, ← pendingBits_byte]
    exact pendingBits_lead hu rfl rfl
  | _ => cases hi

end Sys2Proof.Machine
end

section
/-! PROOFS. `BIT` and `BYTE` from acceptance to response: without stalls (R156, R157, R161), and their shape under any
stalls (R162). -/

namespace Sys2Proof.Machine

/-! ### Runs in READY (R42, R47) -/

/-- The parameters and the results, and so all lengths of segments, are the same (R42). -/
def State.SameTiming (s t : State) : Prop := t.params = s.params ∧ s.SameResults t

theorem State.SameTiming.refl (s : State) : s.SameTiming s := ⟨rfl, rfl, rfl, rfl, rfl, rfl, rfl, rfl⟩

theorem State.SameTiming.trans {s t u : State} (h : s.SameTiming t) (h' : t.SameTiming u) : s.SameTiming u := by
  obtain ⟨hp, h1, h2, h3, h4, h5, h6, h7⟩ := h
  obtain ⟨hp', h1', h2', h3', h4', h5', h6', h7'⟩ := h'
  exact ⟨hp'.trans hp, h1'.trans h1, h2'.trans h2, h3'.trans h3, h4'.trans h4, h5'.trans h5, h6'.trans h6, h7'.trans h7⟩

theorem State.SameTiming.setLength {s t : State} (h : s.SameTiming t) : t.setLength = s.setLength := by
  rw [State.setLength, State.setLength, h.1]

theorem State.SameTiming.spinHigh {s t : State} (h : s.SameTiming t) (b : Bool) :
    t.spinLength (t.highCount b) = s.spinLength (s.highCount b) := by
  obtain ⟨hp, -, -, h0, -, h1, -, -⟩ := h
  simp only [State.spinLength, State.highCount, hp, h0, h1]

theorem State.SameTiming.spinLow {s t : State} (h : s.SameTiming t) (b : Bool) :
    t.spinLength (t.lowCount b) = s.spinLength (s.lowCount b) := by
  obtain ⟨hp, -, -, -, l0, -, l1, -⟩ := h
  simp only [State.spinLength, State.lowCount, hp, l0, l1]

theorem State.SameTiming.pulseSegments {s t : State} (h : s.SameTiming t) : t.pulseSegments = s.pulseSegments := by
  funext b
  rw [State.pulseSegments, State.pulseSegments, h.setLength, h.spinHigh, h.spinLow]

theorem State.SameTiming.highLength {s t : State} (h : s.SameTiming t) (b : Bool) :
    t.highLength b = s.highLength b := by
  rw [State.highLength, State.highLength, h.spinHigh, h.setLength]

/-- In READY a cycle without reset keeps LC and the timing. -/
theorem step_ready {s t : State} (hinv : s.Inv) (hl : s.lc = .ready) (hr : s.rstAt 0 = false) (h : step s = .next t) :
    t.lc = .ready ∧ s.SameTiming t := by
  obtain ⟨hparams, -, hresults⟩ := configurationIsFrozen s t h hr
  refine ⟨?_, hparams, hresults hinv (.inl (by simp [hl]))⟩
  rcases (lifecycleMovesOnlyByItsTable s t hinv h).2 hr with hsame | ⟨hu, -⟩ | ⟨hc, -⟩
  · exact hsame.trans hl
  · simp [hl] at hu
  · simp [hl] at hc

theorem runFor_ready {n : Nat} {s t : State} (hinv : s.Inv) (hl : s.lc = .ready) (hr : s.NoReset n)
    (h : runFor n s = .next t) : t.lc = .ready ∧ s.SameTiming t := by
  induction n generalizing s with
  | zero => cases h; exact ⟨hl, .refl _⟩
  | succ n ih =>
    obtain ⟨u, hu, hrest⟩ := runFor_split (Nat.add_comm n 1 ▸ h)
    have hstep : step s = .next u := runFor_one s ▸ hu
    obtain ⟨hul, hsame⟩ := step_ready hinv hl (hr 0 (by omega)) hstep
    obtain ⟨htl, hsame'⟩ := ih (step_inv hinv hstep) hul (State.NoReset.after (Nat.add_comm n 1 ▸ hr) hu) hrest
    exact ⟨htl, hsame.trans hsame'⟩

theorem Phase.np_of_ne {p : Phase} (hi : p ≠ .idle) (hc : p ≠ .calculate) : p.np = true := by
  cases p with
  | idle => exact absurd rfl hi
  | calculate => exact absurd rfl hc
  | _ => rfl

/-- In READY `np` is 1 while PHASE is not IDLE (R163). -/
theorem State.Inv.np_of_busy {s : State} (h : s.Inv) (hl : s.lc = .ready) (hr : s.rstAt 0 = false)
    (hp : s.phase ≠ .idle) : s.outputs.np = true := by
  have hcalc : s.phase ≠ .calculate := fun hc => by
    have hu := h.calc_lc hc
    simp [hl] at hu
  rw [State.outputs_np, State.visible_eq hr]
  exact Phase.np_of_ne hp hcalc

/-! ### A command from acceptance to response -/

/-- Without stalls a command that leads through `gs` takes one cycle more than they do, and is busy until then. -/
theorem State.Leads.runFor_noStall {s u : State} {gs : List Segment} {P : Nat → State → Prop} (h : u.Leads gs P)
    (hstep : step s = .next u) (hr : s.NoReset (1 + totalLength gs)) (hs : s.NoStall 1 (1 + totalLength gs)) :
    (∃ t, runFor (1 + totalLength gs) s = .next t ∧ P (totalLength gs) t) ∧
    traceFor (1 + totalLength gs) s = levelOf s.pinOe s.pin :: segmentTrace gs ∧
    ∀ k, 0 < k → k < 1 + totalLength gs → ∃ v, runFor k s = .next v ∧ v.phase ≠ .idle := by
  have hrun : runFor 1 s = .next u := (runFor_one s).trans hstep
  have hru : u.NoReset (totalLength gs) := hr.after hrun
  have hsu : u.NoStall 0 (totalLength gs) := hs.of_inputs le_rfl fun k => (runFor_inputs hrun k).2
  obtain ⟨t, hchain, ht⟩ := h.chain_of_noStall hru hsu
  refine ⟨⟨t, (runFor_add hrun _).trans hchain.run, ht⟩, ?_, fun k hk hlt => ?_⟩
  · rw [Nat.add_comm, traceFor_succ_of hstep, State.level_eq (hr 0 (by omega)), hchain.trace_of_noStall hsu]
  · obtain ⟨j, rfl⟩ := Nat.exists_eq_add_of_le hk
    obtain ⟨v, hv, hbusy⟩ := h.busy_before (k := j) (fun i hi => hru i (by omega)) (by omega)
    exact ⟨v, (runFor_add hrun j).trans hv, hbusy⟩

/-- A run that accepts such a command and ends in IDLE holds its chain, and goes on from there. -/
theorem State.Leads.split_run {s u t : State} {gs : List Segment} {P : Nat → State → Prop} {n : Nat} (h : u.Leads gs P)
    (hstep : step s = .next u) (hr : s.NoReset n) (hn : 0 < n) (hrun : runFor n s = .next t) (hidle : t.phase = .idle) :
    ∃ m v e, n = 1 + (m + e) ∧ Chain u gs m v ∧ P m v ∧ runFor (1 + m) s = .next v ∧ runFor e v = .next t := by
  obtain ⟨d, rfl⟩ := Nat.exists_eq_add_of_le hn
  have hfirst : runFor 1 s = .next u := (runFor_one s).trans hstep
  have hrest : runFor d u = .next t := (runFor_add hfirst d).symm.trans hrun
  obtain ⟨m, hm, v, hchain, hv⟩ := h.chain_of_idle (hr.after hfirst) hrest hidle
  obtain ⟨e, rfl⟩ := Nat.exists_eq_add_of_le hm
  exact ⟨m, v, e, rfl, hchain, hv, (runFor_add hfirst m).trans hchain.run, (runFor_add hchain.run e).symm.trans hrest⟩

/-- A command that leads through `gs` and is over in cycle `n`, for the first time, has spent one cycle and `gs`. -/
theorem State.Leads.chain_of_completes {s u t : State} {gs : List Segment} {P : Nat → State → Prop} {n : Nat}
    (h : u.Leads gs P) (hP : ∀ m v, P m v → v.phase = .idle) (hstep : step s = .next u) (hr : s.NoReset n) (hn : 0 < n)
    (hrun : runFor n s = .next t) (hidle : t.phase = .idle)
    (hbusy : ∀ k, 0 < k → k < n → ∃ v, runFor k s = .next v ∧ v.phase ≠ .idle) :
    ∃ m, n = m + 1 ∧ Chain u gs m t := by
  obtain ⟨m, v, e, rfl, hchain, hv, hsv, hvt⟩ := h.split_run hstep hr hn hrun hidle
  have he : e = 0 := by
    by_contra hne
    obtain ⟨w, hw, hwbusy⟩ := hbusy (1 + m) (by omega) (by omega)
    rw [hsv] at hw
    cases hw
    exact hwbusy (hP m v hv)
  subst he
  cases hvt
  exact ⟨m, Nat.add_comm 1 m, hchain⟩

/-- The accepted state, some cycles later: the record has left the host's queue. -/
theorem State.acceptCycle_afterCycles {s : State} {x : HostItem} {rest : List HostItem} (h : s.host = x :: rest)
    (m : Nat) : s.acceptCycle.afterCycles m = { s.afterCycles (1 + m) with host := rest } := by
  rw [State.acceptCycle_of_host h, ← State.afterCycles_afterCycles, State.afterCycles_one]; rfl

/-- In IDLE the end of a command changes only the response. -/
theorem State.complete_of_idle {s : State} (hp : s.phase = .idle) (hrem : s.rem = 0#40) :
    s.complete = { s with resp := okWith 0#32 } := by
  rw [State.complete, ← hp, ← hrem]

/-- What a pulse command accepted in `s` leaves (R156, R157). -/
theorem State.Inv.complete_accepted {s : State} {i : Instr} {rest : List HostItem} (hinv : s.Inv)
    (ha : s.Accepts i rest) (m : Nat) (b : Bool) (v : Byte) (k : BitVec 3) :
    State.complete { s.acceptCycle.afterCycles m with curbit := b, shift := v, nbits := k } =
      { s.afterCycles (1 + m) with host := rest, curbit := b, shift := v, nbits := k, resp := okWith 0#32 } := by
  rw [State.acceptCycle_afterCycles ha.2.1]
  exact State.complete_of_idle (s := { s.afterCycles (1 + m) with host := rest, curbit := b, shift := v, nbits := k })
    ha.1 (hinv.idle_iff.1 ha.1)

/-! ### Without stalls (R156, R157, R161) -/

theorem State.Inv.np_along {s : State} {n : Nat} (hinv : s.Inv) (hl : s.lc = .ready) (hr : s.NoReset n) {k : Nat}
    (hk : k < n) {v : State} (hv : runFor k s = .next v) (hp : v.phase ≠ .idle) : v.outputs.np = true :=
  (runFor_inv hinv hv).np_of_busy (runFor_ready hinv hl (fun j hj => hr j (by omega)) hv).1
    ((runFor_inputs hv 0).1.trans (hr k hk)) hp

/-- Settles O29: the chain of one bit, whose four segments are the duration and the trace. -/
theorem bitEmitsOnePulse : Obligations.BitEmitsOnePulse := by
  intro s b rest n hinv ha hl S I ch cl hn hr hs
  have hlow := hinv.level_low hl (by simp [ha.1])
  obtain ⟨u, hstep, hlead⟩ := accept_bit hinv ha hl
  have hlength : n = 1 + totalLength (s.pulses [b]) := by
    rw [State.totalLength_pulses, List.map_singleton, List.sum_singleton, hn, Nat.add_mul]
    show _ = 1 + (2 * S + ch * I + cl * I)
    omega
  subst hlength
  obtain ⟨⟨t, hrun, ht⟩, htrace, hbusy⟩ := hlead.runFor_noStall hstep hr hs
  refine ⟨?_, ?_, fun k hk hlt => ?_⟩
  · rw [hrun, ht, hinv.complete_accepted ha]; rfl
  · rw [htrace, hlow, State.segmentTrace_pulses, List.flatMap_singleton, Nat.add_comm 1 S, List.replicate_succ]; rfl
  · obtain ⟨v, hv, hp⟩ := hbusy k hk hlt
    exact ⟨v, hv, hp, hinv.np_along hl hr hlt hv hp⟩

/-- The cycles of bits sent back to back, by the numbers of ones and zeros among them (R157). -/
theorem State.sum_bitLength (s : State) (bs : List Bool) :
    (bs.map s.bitLength).sum = bs.length * (2 * s.setLength) +
      (bs.count true * (s.cntT1h.toNat + s.cntT1l.toNat) + bs.count false * (s.cntT0h.toNat + s.cntT0l.toNat)) *
        s.params.iterCycles.val := by
  induction bs with
  | nil => simp
  | cons b bs ih =>
    rw [List.map_cons, List.sum_cons, ih]
    cases b <;> simp [State.bitLength, State.spinLength, State.highCount, State.lowCount] <;> ring

/-- The cycles of a byte after its acceptance, by the number of its one-bits (R157). -/
theorem State.totalLength_byte (s : State) (v : Byte) :
    totalLength (s.pulses (wireBits v)) = 16 * s.setLength +
      ((wireBits v).count true * (s.cntT1h.toNat + s.cntT1l.toNat) +
        (8 - (wireBits v).count true) * (s.cntT0h.toNat + s.cntT0l.toNat)) * s.params.iterCycles.val := by
  have hlen : (wireBits v).length = 8 := rfl
  have hzeros : 8 - (wireBits v).count true = (wireBits v).count false := by
    have hcount := List.count_true_add_count_false (wireBits v)
    omega
  rw [State.totalLength_pulses, State.sum_bitLength, hzeros, hlen, ← Nat.mul_assoc]

/-- Settles O30: the chains of the eight bits in wire order. -/
theorem byteEmitsEightPulses : Obligations.ByteEmitsEightPulses := by
  intro s v rest n ones hinv ha hl S I ch cl bits hones hn hr hs
  have hbits : bits = wireBits v := rfl
  have hlow := hinv.level_low hl (by simp [ha.1])
  obtain ⟨u, hstep, hlead⟩ := accept_pulse hinv ha hl rfl
  have hlength : n = 1 + totalLength (s.pulses (pulseBits (.byte v))) := by
    rw [hn, hones, hbits, pulseBits, State.totalLength_byte, ← Nat.add_assoc]
    rfl
  obtain ⟨⟨t, hrun, ht⟩, htrace, hbusy⟩ := hlead.runFor_noStall hstep (hlength ▸ hr) (hlength ▸ hs)
  rw [← hlength] at hrun htrace hbusy
  refine ⟨⟨t, hrun, ?_⟩, ?_, fun k hk hlt => ?_⟩
  · rw [hlength]; exact Eq.trans ht (hinv.complete_accepted ha _ _ _ _)
  · exact htrace.trans (by rw [hlow, State.segmentTrace_pulses]; rfl)
  · obtain ⟨w, hw, hp⟩ := hbusy k hk hlt
    exact ⟨w, hw, hp, hinv.np_along hl hr hlt hw hp⟩

/-! ### Under stalls (R162) -/

theorem State.Sent.idle {s t : State} {m : Nat} (h : s.Sent m t) : t.phase = .idle := by rw [h]; rfl

/-- Two stretches of one level are one. -/
theorem Stretch.append {s t u : State} {l : Level} {r r' m m' : Nat} (h : Stretch s l r m t)
    (h' : Stretch t l r' m' u) : Stretch s l (r + r') (m + m') u where
  run := (runFor_add h.run m').trans h'.run
  trace := by rw [traceFor_add h.run, h.trace, h'.trace, List.replicate_append_replicate]
  length := by
    have hsplit := stallCount_after h.run m'
    have hm := h.length
    have hm' := h'.length
    omega
  pos := by have hm := h.pos; omega
  last := by
    have hpos := h'.pos
    rw [show m + m' - 1 = m + (m' - 1) by omega, ← (runFor_inputs h.run (m' - 1)).2, h'.last]

/-- The chain of a bit is a low, a high and a low stretch, and CURBIT is the bit while the pin is high. -/
theorem Chain.pulse {w s t : State} {b : Bool} {gs : List Segment} {m : Nat}
    (h : Chain s (w.pulseSegments b ++ gs) m t) :
    ∃ a hi c k s₁ s₂ s₃, m = a + (hi + (c + k)) ∧ Stretch s .low w.setLength a s₁ ∧ s₁.curbit = b ∧
      Stretch s₁ .high (w.highLength b) hi s₂ ∧ Stretch s₂ .low (w.spinLength (w.lowCount b)) c s₃ ∧
      Chain s₃ gs k t := by
  cases h with | cons _ hseth h => cases h with | cons hbit hspinh h => cases h with | cons _ hsetl h =>
  cases h with | cons _ hspinl h =>
  exact ⟨_, _, _, _, _, _, _, by rw [Nat.add_assoc], hseth, hbit, hspinh.append hsetl, hspinl, h⟩

/-- Settles O34: the chain of one bit is a low, a high and a low stretch. -/
theorem stalledBitKeepsItsShape : Obligations.StalledBitKeepsItsShape := by
  intro s t b rest n hinv ha hl hr hn hrun hidle hbusy
  have hlow := hinv.level_low hl (by simp [ha.1])
  obtain ⟨u, hstep, hlead⟩ := accept_pulse hinv ha hl rfl
  obtain ⟨m, rfl, hchain⟩ := hlead.chain_of_completes (fun _ _ hv => hv.idle) hstep hr hn hrun hidle hbusy
  obtain ⟨a, h, c, k, s₁, s₂, s₃, rfl, hlo, -, hhi, hlo', hend⟩ := hchain.pulse
  cases hend
  have hfirst : runFor 1 s = .next u := (runFor_one s).trans hstep
  have hone : runFor (1 + a) s = .next s₁ := (runFor_add hfirst a).trans hlo.run
  have htwo : runFor (1 + a + h) s = .next s₂ := (runFor_add hone h).trans hhi.run
  have ha' := hlo.length
  have hh' := hhi.length
  have hc' := hlo'.length
  have hsa := stallCount_after hfirst a
  have hsh := stallCount_after hone h
  have hsc := stallCount_after htwo c
  rw [show 1 + a + h + c = a + (h + (c + 0)) + 1 by omega] at hsc
  refine ⟨a, h, c, by omega, ?_, by omega, by omega, by omega⟩
  rw [traceFor_succ_of hstep, traceFor_add hlo.run, traceFor_add hhi.run, Nat.add_zero, hlo.trace, hhi.trace,
    hlo'.trace, State.level_eq (hr 0 (by omega)), hlow, Nat.add_comm 1 a, List.replicate_succ]
  simp

/-- Settles O54: the acceptance cycle, then the chain's unstalled cycles and the successors of its stalled ones. -/
theorem stalledByteKeepsItsShape : Obligations.StalledByteKeepsItsShape := by
  intro s t v rest n hinv ha hl hr hn hrun hidle hbusy tr bits
  have hlow := hinv.level_low hl (by simp [ha.1])
  obtain ⟨u, hstep, hlead⟩ := accept_pulse hinv ha hl rfl
  obtain ⟨m, rfl, hchain⟩ := hlead.chain_of_completes (fun _ _ hv => hv.idle) hstep hr hn hrun hidle hbusy
  have hstall : ∀ k, s.stallAt (k + 1) = u.stallAt k := fun k =>
    Nat.add_comm 1 k ▸ ((runFor_inputs ((runFor_one s).trans hstep) k).2).symm
  have htr : tr = .low :: traceFor m u := by
    rw [← hlow, ← State.level_eq (hr 0 (by omega))]
    exact traceFor_succ_of hstep
  constructor
  · have hrest : bits.flatMap s.bitTrace = u.unstalledTrace m :=
      (State.segmentTrace_pulses s bits).symm.trans hchain.unstalledTrace.symm
    refine Eq.trans ?_ (congrArg (Level.low :: ·) hrest.symm)
    have hkeep : (fun k => decide (k = 0) || !s.stallAt k) ∘ Nat.succ = fun k => !u.stallAt k :=
      funext fun k => by simp [hstall]
    rw [htr, List.range_succ_eq_map, List.filter_cons_of_pos (by simp), List.filter_map, hkeep]
    exact congrArg (Level.low :: ·) (List.filterMap_map ..)
  · intro k hk hlt hs
    obtain ⟨j, rfl⟩ := Nat.exists_eq_add_of_le' hk
    obtain ⟨hjm, hj⟩ := hchain.stalled_holds (k := j) (by omega) ((hstall j).symm.trans hs)
    rw [htr]
    exact ⟨by omega, hj⟩

end Sys2Proof.Machine
end

section
/-! PROOFS. What a trace says: the decoders of R166 on the chains of a whole run, without stalls and within the
threshold decoder's bound. -/

namespace Sys2Proof.Machine

/-! ### High runs of a trace (R166) -/

theorem highRunsFrom_high (n h : Nat) (tr : List Level) :
    highRunsFrom n (List.replicate h .high ++ tr) = highRunsFrom (n + h) tr := by
  induction h generalizing n with
  | zero => rfl
  | succ h ih => rw [List.replicate_succ, List.cons_append, highRunsFrom, ih, Nat.add_right_comm, Nat.add_assoc]

theorem highRuns_low (c : Nat) (tr : List Level) : highRuns (List.replicate c .low ++ tr) = highRuns tr := by
  induction c with
  | zero => rfl
  | succ c ih => rw [← ih]; rfl

/-- A low stretch ends the high run before it. -/
theorem highRunsFrom_low {n c : Nat} (hn : 0 < n) (hc : 0 < c) (tr : List Level) :
    highRunsFrom n (List.replicate c .low ++ tr) = n :: highRuns tr := by
  obtain ⟨c, rfl⟩ : ∃ d, c = d + 1 := ⟨c - 1, by omega⟩
  rw [List.replicate_succ, List.cons_append, highRunsFrom, if_neg hn.ne']
  exact congrArg (n :: ·) (highRuns_low c tr)

/-- A pulse is one high run. -/
theorem highRuns_pulse {h c : Nat} (a : Nat) (hh : 0 < h) (hc : 0 < c) (tr : List Level) :
    highRuns (List.replicate a .low ++ (List.replicate h .high ++ (List.replicate c .low ++ tr))) =
      h :: highRuns tr := by
  rw [highRuns_low, highRuns, highRunsFrom_high, Nat.zero_add, highRunsFrom_low hh hc]

/-! ### Decoders of a run -/

/-- The decoder `dec` reads every high pulse of the next `n` cycles as the bit that CURBIT holds in it. -/
def State.Decodes (s : State) (n : Nat) (dec : Nat → Option Bool) : Prop :=
  ∀ p h u v, p + h ≤ n → runFor p s = .next u → Stretch u .high (u.highLength u.curbit) h v → dec h = some u.curbit

theorem State.Decodes.after {s t : State} {m n : Nat} {dec : Nat → Option Bool} (hdec : s.Decodes (m + n) dec)
    (h : runFor m s = .next t) : t.Decodes n dec :=
  fun p hi u v hle hrun hseg => hdec (m + p) hi u v (by omega) ((runFor_add h p).trans hrun) hseg

/-- Such a decoder reads the bits of a chain of pulses, one after another. -/
theorem Chain.decoded {w s t : State} {bs : List Bool} {m : Nat} {dec : Nat → Option Bool}
    (h : Chain s (w.pulses bs) m t) (hinv : s.Inv) (hl : s.lc = .ready) (hw : w.SameTiming s)
    (hr : s.NoReset m) (hdec : s.Decodes m dec) (tr : List Level) :
    (highRuns (traceFor m s ++ tr)).filterMap dec = bs ++ (highRuns tr).filterMap dec := by
  induction bs generalizing s m with
  | nil => cases h; rfl
  | cons b bs ih =>
    obtain ⟨a, hi, c, k, s₁, s₂, s₃, rfl, hlow, hbit, hhigh, hlow', hrest⟩ := Chain.pulse h
    have hrun : runFor (a + hi) s = .next s₂ := (runFor_add hlow.run hi).trans hhigh.run
    have hrun' : runFor (a + hi + c) s = .next s₃ := (runFor_add hrun c).trans hlow'.run
    have hassoc : a + (hi + (c + k)) = a + hi + c + k := by omega
    have hone : dec hi = some b := by
      have hsame := (runFor_ready hinv hl (fun j hj => hr j (by omega)) hlow.run).2
      rw [← hbit]
      refine hdec a hi s₁ s₂ (by omega) hlow.run ?_
      rwa [(hw.trans hsame).highLength, hbit]
    rw [hassoc] at hr hdec
    obtain ⟨hl₃, hsame₃⟩ := runFor_ready hinv hl (fun j hj => hr j (by omega)) hrun'
    have hothers := ih hrest (runFor_inv hinv hrun') hl₃ (hw.trans hsame₃) (hr.after hrun') (hdec.after hrun')
    rw [traceFor_add hlow.run, traceFor_add hhigh.run, traceFor_add hlow'.run, hlow.trace, hhigh.trace, hlow'.trace,
      List.append_assoc, List.append_assoc, List.append_assoc, highRuns_pulse a hhigh.pos hlow'.pos,
      List.filterMap_cons_some hone, hothers, List.cons_append]

/-! ### Runs of a program of pulse commands -/

/-- The host's item of a program: a gap of one cycle, or an operation. -/
def hostItem : Option Instr → HostItem
  | none => .idle
  | some i => .txn (encode i)

/-- The bits of an item, in wire order. -/
def itemBits : Option Instr → List Bool
  | none => []
  | some i => pulseBits i

theorem State.Sent.host {s t : State} {m : Nat} (h : s.Sent m t) : t.host = s.host := by rw [h]; rfl

/-- An idle cycle in READY shows the line low (R169). -/
theorem traceFor_of_idle {s : State} {n : Nat} (hinv : s.Inv) (hl : s.lc = .ready) (hp : s.phase = .idle)
    (hr : s.rstAt 0 = false) (hh : ∀ r rest, s.host ≠ .txn r :: rest) :
    traceFor (n + 1) s = .low :: traceFor n s.idleCycle := by
  rw [traceFor_succ_of (step_of_idle hr hp hh), State.level_eq hr, hinv.level_low hl (by simp [hp])]

/-- With nothing to send the line stays low. -/
theorem traceFor_of_empty {s : State} {n : Nat} (hinv : s.Inv) (hl : s.lc = .ready) (hp : s.phase = .idle)
    (hr : s.NoReset n) (hh : s.host = []) : traceFor n s = List.replicate n .low := by
  induction n generalizing s with
  | zero => rfl
  | succ n ih =>
    have hno : ∀ r rest, s.host ≠ .txn r :: rest := by simp [hh]
    have hstep := (runFor_one s).trans (step_of_idle (hr 0 (by omega)) hp hno)
    rw [traceFor_of_idle hinv hl hp (hr 0 (by omega)) hno, ih hinv.idleCycle hl hp
      (State.NoReset.after (Nat.add_comm n 1 ▸ hr) hstep) (by simp [hh])]
    rfl

/-- A run that empties the host's queue takes a cycle. -/
theorem runFor_pos {s t : State} {n : Nat} (hrun : runFor n s = .next t) (ht : t.host = []) (hs : s.host ≠ []) :
    0 < n := by
  rcases n with _ | n
  · cases hrun; exact absurd ht hs
  · exact Nat.succ_pos n

/-- A decoder that reads every high pulse reads the bits of a whole run of pulse commands, in issue order. -/
theorem run_decoded {s t : State} {sent : List (Option Instr)} {n : Nat} {dec : Nat → Option Bool} (hinv : s.Inv)
    (hl : s.lc = .ready) (hp : s.phase = .idle) (hsent : ∀ i, some i ∈ sent → isPulse i = true)
    (hh : s.host = sent.map hostItem) (hr : s.NoReset n) (hrun : runFor n s = .next t) (hidle : t.phase = .idle)
    (hend : t.host = []) (hdec : s.Decodes n dec) :
    (highRuns (traceFor n s)).filterMap dec = sent.flatMap itemBits := by
  induction sent generalizing s n with
  | nil =>
    rw [traceFor_of_empty hinv hl hp hr hh, ← List.append_nil (List.replicate n Level.low), highRuns_low]
    rfl
  | cons x sent ih =>
    obtain ⟨d, rfl⟩ := Nat.exists_eq_add_of_le (runFor_pos hrun hend (by simp [hh]))
    have hsent' : ∀ i, some i ∈ sent → isPulse i = true := fun i hi => hsent i (List.mem_cons_of_mem x hi)
    cases x with
    | none =>
      have hno : ∀ r rest, s.host ≠ .txn r :: rest := by simp [hh, hostItem]
      have hstep := (runFor_one s).trans (step_of_idle (hr 0 (by omega)) hp hno)
      have hothers := ih hinv.idleCycle hl hp hsent' (by simp [hh]) (hr.after hstep)
        ((runFor_add hstep d).symm.trans hrun) (hdec.after hstep)
      rw [Nat.add_comm, traceFor_of_idle hinv hl hp (hr 0 (by omega)) hno]
      exact (congrArg _ (highRuns_low 1 _)).trans hothers
    | some i =>
      have ha : s.Accepts i (sent.map hostItem) := ⟨hp, hh, hr 0 (by omega)⟩
      obtain ⟨u, hstep, hlead⟩ := accept_pulse hinv ha hl (hsent i (List.mem_cons_self ..))
      obtain ⟨m, v, e, he, hchain, hv, hsv, hvt⟩ := hlead.split_run hstep hr (by omega) hrun hidle
      obtain rfl : d = m + e := by omega
      have hfirst := (runFor_one s).trans hstep
      obtain ⟨hul, hsame⟩ := step_ready hinv hl ha.2.2 hstep
      have hru := hr.after hfirst
      have hbits := hchain.decoded (step_inv hinv hstep) hul hsame (fun k hk => hru k (by omega))
        (fun p h u v hle => (hdec.after hfirst) p h u v (by omega)) (traceFor e v)
      rw [← Nat.add_assoc] at hr hdec
      have hothers := ih (runFor_inv hinv hsv) (runFor_ready hinv hl (fun k hk => hr k (by omega)) hsv).1 hv.idle hsent'
        (by rw [hv.host, State.acceptCycle_host, hh]; rfl) (hr.after hsv) hvt (hdec.after hsv)
      rw [Nat.add_comm, traceFor_succ_of hstep, traceFor_add hchain.run, State.level_eq ha.2.2,
        hinv.level_low hl (by simp [hp]), List.flatMap_cons, ← hothers]
      exact (congrArg _ (highRuns_low 1 _)).trans hbits

/-- The same for a program written with other functions for an item's record and bits. -/
theorem run_decoded_of {s t : State} {sent : List (Option Instr)} {n : Nat} {dec : Nat → Option Bool}
    {item : Option Instr → HostItem} {bits : Option Instr → List Bool} (hitem : ∀ x, item x = hostItem x)
    (hbits : ∀ x, itemBits x = bits x) (hinv : s.Inv) (hl : s.lc = .ready) (hp : s.phase = .idle)
    (hsent : ∀ i, some i ∈ sent → (∃ b, i = .bit b) ∨ ∃ v, i = .byte v) (hh : s.host = sent.map item)
    (hr : s.NoReset n) (hrun : runFor n s = .next t) (hidle : t.phase = .idle) (hend : t.host = [])
    (hdec : s.Decodes n dec) :
    (highRuns (traceFor n s)).filterMap dec = sent.flatMap bits := by
  obtain rfl := funext hitem
  obtain rfl := funext hbits
  refine run_decoded hinv hl hp (fun i hi => ?_) hh hr hrun hidle hend hdec
  obtain ⟨b, rfl⟩ | ⟨v, rfl⟩ := hsent i hi <;> rfl

/-! ### The exact decoder (R166) -/

/-- Cycle `j` of a trace shows the level of the state then. -/
theorem traceFor_getElem? {s t : State} {n j : Nat} (h : runFor j s = .next t) (hj : j < n) :
    (traceFor n s)[j]? = some t.level := by
  obtain ⟨d, rfl⟩ : ∃ d, n = j + (d + 1) := ⟨n - j - 1, by omega⟩
  rw [traceFor_add h, List.getElem?_append_right (traceFor_length h).le, traceFor_length h, Nat.sub_self, traceFor]
  rfl

theorem levelOf_eq_high_iff (oe pin : Bool) : levelOf oe pin = .high ↔ oe = true ∧ pin = true := by
  cases oe <;> cases pin <;> decide

/-- Where the environment honours `np` no high pulse is stalled (R163). -/
theorem State.HonoursNp.stretch_unstalled {s u v : State} {n p r h : Nat} (hnp : s.HonoursNp n) (hinv : s.Inv)
    (hr : s.NoReset n) (hle : p + h ≤ n) (hrun : runFor p s = .next u) (hseg : Stretch u .high r h v) :
    u.NoStall 0 h := by
  intro j _ hj
  have hv := hseg.run
  obtain ⟨d, rfl⟩ := Nat.exists_eq_add_of_le hj.le
  obtain ⟨w, hw, -⟩ := runFor_split hv
  have hsw : runFor (p + j) s = .next w := (runFor_add hrun j).trans hw
  have hrst : w.rstAt 0 = false := (runFor_inputs hsw 0).1.trans (hr _ (by omega))
  have hlevel : w.level = .high := by
    have hget := traceFor_getElem? hw hj
    rw [hseg.trace, List.getElem?_replicate_of_lt hj] at hget
    exact (Option.some.inj hget).symm
  rw [State.level_eq hrst, levelOf_eq_high_iff] at hlevel
  have hnpw : w.outputs.np = true := by
    rw [State.outputs_np, State.visible_eq hrst]
    rcases (runFor_inv hinv hsw).high_iff.1 hlevel.2 with hphase | hphase <;> rw [hphase] <;> rfl
  exact (runFor_inputs hw 0).2.symm.trans (hnp (p + j) (by omega) w hsw hnpw)

/-- Different counts make different high lengths. -/
theorem State.Inv.highLength_ne {s : State} (h : s.Inv) (hne : s.cntT0h ≠ s.cntT1h) :
    s.highLength false ≠ s.highLength true := by
  intro heq
  have hmul : s.cntT0h.toNat * s.params.iterCycles.val = s.cntT1h.toNat * s.params.iterCycles.val :=
    Nat.add_right_cancel heq
  exact hne (BitVec.eq_of_toNat_eq (Nat.eq_of_mul_eq_mul_right h.params.iter hmul))

theorem State.exactBit_highLength {s : State} (hne : s.highLength false ≠ s.highLength true) (b : Bool) :
    s.exactBit (s.highLength b) = some b := by
  cases b
  · rw [State.exactBit, if_neg hne, if_pos rfl]
  · rw [State.exactBit, if_pos rfl]

/-- Settles O52: unstalled high pulses have one of the two lengths. -/
theorem traceDecodesToTheBitsSent : Obligations.TraceDecodesToTheBitsSent := by
  intro s t sent n hinv hl hp hne hsent hh hr hnp hrun hidle hend
  have hdec : s.Decodes n s.exactBit := by
    intro p h u v hle hu hseg
    have hlength := hseg.length
    rw [(hnp.stretch_unstalled hinv hr hle hu hseg).stallCount_eq_zero, Nat.add_zero,
      (runFor_ready hinv hl (fun k hk => hr k (by omega)) hu).2.highLength] at hlength
    rw [hlength]
    exact State.exactBit_highLength (hinv.highLength_ne hne) u.curbit
  refine run_decoded_of (fun x => ?item) (fun x => ?bits) hinv hl hp hsent hh hr hrun hidle hend hdec
  case item => cases x <;> rfl
  case bits =>
    rcases x with _ | i
    · rfl
    · cases i <;> rfl

/-! ### The threshold decoder (R166) -/

/-- The threshold lies between the high lengths of the two bits, half their difference above the lower one. -/
theorem State.Inv.thresholdBit_eq {s : State} (hinv : s.Inv) (hlt : s.cntT0h.toNat < s.cntT1h.toNat) {b : Bool}
    {h stalls : Nat} (hh : h = s.highLength b + stalls)
    (hb : b = false → stalls ≤ (s.cntT1h.toNat - s.cntT0h.toNat) * s.params.iterCycles.val / 2) :
    s.thresholdBit h = b := by
  have hmul := Nat.mul_lt_mul_of_pos_right hlt hinv.params.iter
  rw [Nat.sub_mul] at hb
  rw [State.thresholdBit, Nat.add_mul]
  cases b with
  | true =>
    have hhigh : s.highLength true = s.cntT1h.toNat * s.params.iterCycles.val + s.setLength := rfl
    rw [decide_eq_true_eq]
    omega
  | false =>
    have hhigh : s.highLength false = s.cntT0h.toNat * s.params.iterCycles.val + s.setLength := rfl
    have hbound := hb rfl
    rw [decide_eq_false_iff_not]
    omega

/-- Settles O55: within the bound every high pulse lies on its bit's side of the threshold. -/
theorem thresholdDecoderRecoversTheBitsSent : Obligations.ThresholdDecoderRecoversTheBitsSent := by
  intro s t sent n hinv hl hp hlt hsent hh hr hrun hidle hend hbound
  have hdec : s.Decodes n fun h => some (s.thresholdBit h) := by
    intro p h u v hle hu hseg
    have hlength := hseg.length
    rw [(runFor_ready hinv hl (fun k hk => hr k (by omega)) hu).2.highLength] at hlength
    refine congrArg some (hinv.thresholdBit_eq hlt hlength fun hb => ?_)
    have hhigh : ∀ j < h, (traceFor n s)[p + j]? = some .high := by
      intro j hj
      obtain ⟨d, rfl⟩ := Nat.exists_eq_add_of_le hle
      rw [Nat.add_assoc, traceFor_add hu, List.getElem?_append_right (by rw [traceFor_length hu]; omega),
        traceFor_length hu, Nat.add_sub_cancel_left, traceFor_add hseg.run, hseg.trace,
        List.getElem?_append_left (by simpa using hj), List.getElem?_replicate_of_lt hj]
    have hstall : (fun j => s.stallAt (p + j)) = u.stallAt := funext fun j => (runFor_inputs hu j).2.symm
    have hcount := hbound p h u hhigh hu hb
    rwa [hstall] at hcount
  rw [State.thresholdBits, ← List.filterMap_eq_map]
  refine run_decoded_of (fun x => ?item) (fun x => ?bits) hinv hl hp hsent hh hr hrun hidle hend hdec
  case item => cases x <;> rfl
  case bits =>
    rcases x with _ | i
    · rfl
    · cases i <;> rfl

theorem countP_range_window (p : Nat → Bool) (m h k : Nat) :
    (List.range h).countP (fun j => p (m + j)) ≤ (List.range (m + h + k)).countP p := by
  rw [List.range_add, List.range_add, List.countP_append, List.countP_append, List.countP_map]
  exact Nat.le_add_right_of_le (Nat.le_add_left _ _)

/-- Settles O35: the one high run of a stalled bit, by its shape (O34). -/
theorem thresholdDecoderToleratesStalls : Obligations.ThresholdDecoderToleratesStalls := by
  intro s t b rest n hinv ha hl hlt hr hn hrun hidle hbusy hbound
  obtain ⟨a, h, c, hac, htrace, -, hhigh, hlow⟩ :=
    stalledBitKeepsItsShape s t b rest n hinv ha hl hr hn hrun hidle hbusy
  have hset : 0 < s.setLength := hinv.setLength_fitsRem.1
  have hspin : 0 < s.spinLength (s.lowCount b) := (hinv.spinLength_fitsRem (hinv.lowCount_pos hl b)).1
  have hlen : s.setLength ≤ s.highLength b := Nat.le_add_left _ _
  have hsplit := State.stallCount_add h (s.afterCycles_stallAt (1 + a))
  have hsplit' := State.stallCount_add c (s.afterCycles_stallAt (1 + a + h))
  rw [show 1 + a + h + c = n by omega] at hsplit'
  have hruns : highRuns (traceFor n s) = [h] := by
    have hpulse := highRuns_pulse (h := h) (c := c) (1 + a) (by omega) (by omega) []
    rwa [List.append_nil, ← List.append_assoc, ← htrace] at hpulse
  rw [State.thresholdBits, hruns, List.map_singleton]
  refine congrArg (fun x => [x]) (hinv.thresholdBit_eq (stalls := (s.afterCycles (1 + a)).stallCount h) hlt (by omega)
    fun hb => le_trans ?_ (hbound hb))
  have hwindow := countP_range_window (fun k => s.stallAt k && decide ((traceFor n s)[k]? = some .high)) (1 + a) h c
  rw [show 1 + a + h + c = n by omega] at hwindow
  refine le_trans (List.countP_mono_left fun j hj hs => ?_) hwindow
  have hjh : j < h := List.mem_range.1 hj
  rw [State.afterCycles_stallAt] at hs
  simp [hs, htrace, List.getElem?_append, hjh]

end Sys2Proof.Machine
end

section
/-! PROOFS. The least time of a frame: its bytes and its latch, with any gaps and stalls (R168). -/

namespace Sys2Proof.Machine

/-! ### The shorter bit -/

/-- The cycles of the shorter bit. -/
def State.shorterBit (s : State) : Nat := min (s.bitLength false) (s.bitLength true)

theorem State.shorterBit_le (s : State) (b : Bool) : s.shorterBit ≤ s.bitLength b := by
  cases b
  · exact min_le_left _ _
  · exact min_le_right _ _

theorem State.mul_shorterBit_le (s : State) (bs : List Bool) :
    bs.length * s.shorterBit ≤ totalLength (s.pulses bs) := by
  rw [State.totalLength_pulses]
  have hall : ∀ n ∈ bs.map s.bitLength, s.shorterBit ≤ n := by
    rintro n hn
    obtain ⟨b, -, rfl⟩ := List.mem_map.1 hn
    exact s.shorterBit_le b
  simpa using List.card_nsmul_le_sum _ _ hall

theorem State.SameTiming.shorterBit {s t : State} (h : s.SameTiming t) : t.shorterBit = s.shorterBit := by
  simp only [State.shorterBit, ← State.totalLength_pulseSegments, h.pulseSegments]

theorem State.SameTiming.latchLength {s t : State} (h : s.SameTiming t) :
    t.spinLength t.cntRes = s.spinLength s.cntRes := by
  obtain ⟨hp, -, -, -, -, -, -, hres⟩ := h
  simp only [State.spinLength, hp, hres]

/-! ### Frames -/

/-- A `LATCH` accepted in READY leads through its one segment (R158). -/
theorem accept_latch {s : State} {rest : List HostItem} (hinv : s.Inv) (ha : s.Accepts .latch rest)
    (hl : s.lc = .ready) :
    ∃ u, step s = .next u ∧
      u.Leads [⟨s.curbit, .low, s.spinLength s.cntRes⟩] fun m t => t = (u.afterCycles m).complete := by
  obtain ⟨-, -, -, -, hres⟩ := (hinv.calibrated (.inr hl)).counts_pos hinv.params
  exact ⟨_, (ha.step rfl).trans (if_pos hl), .cons (by simp) rfl (hinv.level_low hl (by simp [ha.1])) rfl
    (hinv.spinLength_fitsRem hres) fun m => .nil (segmentEnd_of_spinr rfl)⟩

/-- A run of bytes and a last latch takes at least the cycles of the shorter bit for each bit and those of the latch. -/
theorem frame_lasts {s t : State} {bytes : List Byte} {n : Nat} (hinv : s.Inv) (hl : s.lc = .ready)
    (hp : s.phase = .idle)
    (hitems : s.host.filter (fun x => decide (x ≠ .idle)) =
      bytes.map (fun v => .txn (encode (.byte v))) ++ [.txn (encode .latch)])
    (hr : s.NoReset n) (hrun : runFor n s = .next t) (hidle : t.phase = .idle) (hend : t.host = []) :
    bytes.length * (8 * s.shorterBit) + s.spinLength s.cntRes ≤ n := by
  generalize hh : s.host = items at hitems
  induction items generalizing s bytes n with
  | nil => simp at hitems
  | cons x items ih =>
    obtain ⟨d, rfl⟩ := Nat.exists_eq_add_of_le (runFor_pos hrun hend (by simp [hh]))
    cases x with
    | idle =>
      have hstep := (runFor_one s).trans (step_of_idle (hr 0 (by omega)) hp (by simp [hh]))
      have hrest := ih (s := s.idleCycle) hinv.idleCycle hl hp (hr.after hstep)
        ((runFor_add hstep d).symm.trans hrun) (by simp [hh]) (by simpa using hitems)
      exact hrest.trans (Nat.le_add_left d 1)
    | txn r =>
      rw [List.filter_cons_of_pos (by simp)] at hitems
      cases bytes with
      | nil =>
        obtain ⟨rfl, -⟩ : r = encode .latch ∧ _ := by simpa using hitems
        obtain ⟨u, hstep, hlead⟩ := accept_latch hinv ⟨hp, hh, hr 0 (by omega)⟩ hl
        obtain ⟨m, v, e, he, hchain, -⟩ := hlead.split_run hstep hr (by omega) hrun hidle
        have hlength := hchain.length_eq
        have htotal : totalLength [⟨s.curbit, .low, s.spinLength s.cntRes⟩] = s.spinLength s.cntRes := rfl
        simp only [List.length_nil, Nat.zero_mul]
        omega
      | cons b bytes =>
        obtain ⟨rfl, hothers⟩ : r = encode (.byte b) ∧ _ := by simpa using hitems
        obtain ⟨u, hstep, hlead⟩ := accept_pulse hinv ⟨hp, hh, hr 0 (by omega)⟩ hl rfl
        obtain ⟨m, v, e, he, hchain, hv, hsv, hvt⟩ := hlead.split_run hstep hr (by omega) hrun hidle
        have hlength := hchain.length_eq
        have hbits : 8 * s.shorterBit ≤ totalLength (s.pulses (pulseBits (.byte b))) := s.mul_shorterBit_le (wireBits b)
        rw [he, ← Nat.add_assoc] at hr
        obtain ⟨hvl, hsame⟩ := runFor_ready hinv hl (fun k hk => hr k (by omega)) hsv
        have hrest := ih (runFor_inv hinv hsv) hvl hv.idle (hr.after hsv) hvt
          (by rw [hv.host, State.acceptCycle_host, hh]; rfl) (by simpa using hothers)
        rw [hsame.shorterBit, hsame.latchLength] at hrest
        rw [List.length_cons, Nat.succ_mul]
        omega

/-- Settles O53: three bytes of eight bits for each LED. -/
theorem frameTakesItsTime : Obligations.FrameTakesItsTime := by
  intro s t leds n bytes items hinv hl hp hbytes hh hitems _ hr hrun hidle hend
  have hlasts := frame_lasts hinv hl hp (hh.symm ▸ hitems) hr hrun hidle hend
  have hshorter : s.shorterBit =
      min (2 * s.params.setCycles.val + (s.cntT0h.toNat + s.cntT0l.toNat) * s.params.iterCycles.val)
        (2 * s.params.setCycles.val + (s.cntT1h.toNat + s.cntT1l.toNat) * s.params.iterCycles.val) := by
    rw [Nat.add_mul, Nat.add_mul, ← Nat.add_assoc, ← Nat.add_assoc]; rfl
  rw [← hshorter]
  calc leds * 24 * s.shorterBit + s.cntRes.toNat * s.params.iterCycles.val
      = bytes.length * (8 * s.shorterBit) + s.spinLength s.cntRes := by rw [hbytes, State.spinLength]; ring
    _ ≤ n := hlasts

end Sys2Proof.Machine
end

section
/-! PROOFS. Exceptions: what a refusal changes (R192, R193), and what stands in FAULT until reset (R191, R198). -/

namespace Sys2Proof.Machine

/-! ### Refusals (R192, R193) -/

/-- R193 has six codes for refusals. -/
theorem RefuseCause.code_mem (c : RefuseCause) : c.code ∈ [0x10#8, 0x11#8, 0x12#8, 0x13#8, 0x14#8, 0x15#8] := by
  cases c <;> decide

/-- A transaction is refused, or its acceptance cycle does not answer ERR and leaves LCODE (R105, R192). -/
theorem ExecTo.refused_or_keeps_lcode {i : Instr} {s t : State} (h : ExecTo i s t) :
    (∃ c, t = s.refuse c) ∨ (t.lcode = s.lcode ∧ ∀ d, t.resp ≠ some ⟨true, d⟩) := by
  cases h with
  | refuse c => exact .inl ⟨c, rfl⟩
  | _ => exact .inr ⟨rfl, fun d hd => by cases hd⟩

/-- Settles O18: the acceptance cycle refuses, by one of R193's codes, or does not answer ERR. -/
theorem refusalChangesOnlyLcode : Obligations.RefusalChangesOnlyLcode := by
  intro i s t he
  rcases (exec_cases he).refused_or_keeps_lcode with ⟨c, rfl⟩ | ⟨hkeeps, hok⟩
  · exact ⟨fun _ _ => ⟨rfl, c.code_mem⟩, fun hno => absurd rfl (hno 0#32)⟩
  · exact ⟨fun d hd => absurd hd (hok d), fun _ => hkeeps⟩

/-! ### FAULT (R191, R198) -/

/-- No segment runs in FAULT (R55 item 7). -/
theorem State.Inv.idle_of_fault {s : State} (h : s.Inv) (hl : s.lc = .fault) : s.phase = .idle := by
  by_contra hp
  have hlc := h.lifecycle hp
  rw [hl] at hlc
  cases hphase : s.phase <;> simp [hphase, Phase.lifecycle] at hlc

/-- Only an admitted `CONV` writes CONV_ITERS (R41, R129). -/
theorem ExecTo.convIters {i : Instr} {s t : State} (h : ExecTo i s t) (hl : ¬(s.lc = .cald ∨ s.lc = .ready)) :
    t.convIters = s.convIters := by
  cases h with
  | conv d hc => exact absurd hc hl
  | _ => rfl

/-- A cycle in FAULT is idle or carries out a transaction, and neither moves LC, FCODE or CONV_ITERS (R191). -/
theorem step_of_fault {s t : State} (hinv : s.Inv) (hl : s.lc = .fault) (hr : s.rstAt 0 = false)
    (h : step s = .next t) : t.lc = .fault ∧ t.fcode = s.fcode ∧ t.convIters = s.convIters := by
  rcases step_cases_of_idle h hr (hinv.idle_of_fault hl) with ⟨-, rfl⟩ | ⟨r, rest, i, -, -, he⟩
  · exact ⟨hl, rfl, rfl⟩
  · obtain ⟨-, -, hlc, -, -, hfcode⟩ := he.frame
    exact ⟨hlc.trans hl, hfcode, he.convIters (by simp [hl])⟩

/-- Settles O43: the cycle stays in FAULT, and there the invariant gives the idle sequencer, the pin and the results. -/
theorem faultIsAbsorbing : Obligations.FaultIsAbsorbing := by
  intro s t hinv hl hr h
  obtain ⟨hlc, hfcode, hiters⟩ := step_of_fault hinv hl hr h
  obtain ⟨hclk, hnum, hden⟩ := step_sameConfig h hr (by simp [hl])
  have ht : t.Inv := step_inv hinv h
  have hphase : t.phase = .idle := ht.idle_of_fault hlc
  exact ⟨hlc, hfcode, hphase, ht.pin_low (by simp [hphase]), ht.pinOe_low (by simp [hlc]), hclk, hnum, hden, hiters,
    ht.uncalibrated (.inr hlc)⟩

end Sys2Proof.Machine
end

section
/-! PROOFS. Reset wins in every state (R220, R222), and a run ends once (R240). -/

namespace Sys2Proof.Machine

/-! ### Reset (R220, R222) -/

/-- Settles O2: the outputs in reset, and the cycle that leaves a reset state whatever was running. -/
theorem resetWinsInEveryState : Obligations.ResetWinsInEveryState := by
  intro s hr
  obtain ⟨hready, hvalid, -, hoe, hnp⟩ := State.outputs_in_reset hr
  have hlevel : s.level = .undriven := by rw [State.level, State.visible_of_reset hr]; rfl
  exact ⟨hlevel, hready, hnp, hoe, hvalid, s.resetCycle, step_of_reset hr, rfl, rfl, rfl, rfl⟩

/-! ### A run ends once (R240) -/

/-- Nothing is running and the host has no transaction left. -/
def State.Quiescent (s : State) : Prop := s.phase = .idle ∧ ∀ r, .txn r ∉ s.host

/-- A cycle in which nothing is left to do, in reset or not, answers nothing and leaves nothing to do. -/
theorem State.Quiescent.step {s t : State} (h : s.Quiescent) (hs : step s = .next t) : t.Quiescent ∧ t.resp = none := by
  obtain ⟨hidle, hnone⟩ := h
  rcases step_cases hs with
    ⟨-, rfl⟩ | ⟨-, -, -, rfl⟩ | ⟨-, -, r, rest, i, hh, -⟩ | ⟨-, hp, -⟩ | ⟨-, hp, -⟩
  · exact ⟨⟨rfl, hnone⟩, rfl⟩
  · exact ⟨⟨hidle, fun r hr => hnone r (List.mem_of_mem_tail hr)⟩, rfl⟩
  · exact absurd (hh ▸ List.mem_cons_self ..) (hnone r)
  · exact absurd hidle hp
  · exact absurd hidle hp

theorem State.Quiescent.run {s t : State} {n : Nat} (h : s.Quiescent) (hrun : runFor (n + 1) s = .next t) :
    t.resp = none := by
  induction n generalizing s with
  | zero => exact (h.step (runFor_one s ▸ hrun)).2
  | succ n ih =>
    obtain ⟨u, hu, hrest⟩ := runFor_split (Nat.add_comm (n + 1) 1 ▸ hrun)
    exact ih (h.step (runFor_one s ▸ hu)).1 hrest

/-- No later cycle of a run is an end of it. -/
theorem le_of_ended {s t u : State} {m n : Nat} (ht : runFor n s = .next t) (hu : runFor m s = .next u)
    (hte : t.ended = true) (hue : u.ended = true) : m ≤ n := by
  by_contra hlt
  obtain ⟨d, rfl⟩ := Nat.exists_eq_add_of_lt (Nat.not_le.1 hlt)
  obtain ⟨hnone, hidle, -⟩ := (State.ended_iff t).1 hte
  obtain ⟨-, -, hresp⟩ := (State.ended_iff u).1 hue
  have hsilent : u.resp = none := State.Quiescent.run ⟨hidle, hnone⟩ ((runFor_add ht (d + 1)).symm.trans hu)
  simp [hsilent] at hresp

/-- Settles O57: after an end no cycle answers, so of two ends neither is later. -/
theorem runEndsOnce : Obligations.RunEndsOnce := by
  intro s t n ht hte
  obtain ⟨hnone, hidle, -⟩ := (State.ended_iff t).1 hte
  exact ⟨hidle, hnone, fun m u hu hue => le_antisymm (le_of_ended ht hu hte hue) (le_of_ended hu ht hue hte)⟩

end Sys2Proof.Machine
end

section
/-! PROOFS. The duration of every operation, refused ones included (R239): its segments from acceptance to response, and
the one response at their end (R105). -/

namespace Sys2Proof.Machine

/-! ### Between acceptance and response (R100, R105) -/

/-- The port serves a transaction, or has just answered it, and the host goes on with `rest`. -/
def State.Serves (s : State) (rest : List HostItem) : Prop := s.host = rest ∧ (s.resp.isSome = true ↔ s.phase = .idle)

/-- No transaction touches the host's queue. -/
theorem ExecTo.host {i : Instr} {s t : State} (h : ExecTo i s t) : t.host = s.host := by cases h <;> rfl

theorem State.Serves.of_exec {s u : State} {i : Instr} {x : HostItem} {rest : List HostItem} (hp : s.phase = .idle)
    (hh : s.host = x :: rest) (he : exec i s.acceptCycle = .next u) : u.Serves rest :=
  ⟨(exec_cases he).host.trans (by rw [State.acceptCycle_host, hh]; rfl), (exec_cases he).answered_iff hp⟩

theorem State.Serves.step {s t : State} {rest : List HostItem} (h : s.Serves rest) (hp : s.phase ≠ .idle)
    (hr : s.rstAt 0 = false) (hs : step s = .next t) : t.Serves rest := by
  obtain ⟨v, hv, hhost, -⟩ := step_host_of_busy hp s.host
  rw [hs] at hv
  cases hv
  exact ⟨hhost.trans h.1, (step_resp_of_busy hs hr hp).1⟩

/-- The port goes on serving through the busy cycles of a run. -/
theorem State.Serves.run {s t : State} {rest : List HostItem} {n : Nat} (h : s.Serves rest) (hr : s.NoReset n)
    (hbusy : ∀ k < n, ∃ v, runFor k s = .next v ∧ v.phase ≠ .idle) (hrun : runFor n s = .next t) : t.Serves rest := by
  induction n generalizing t with
  | zero => cases hrun; exact h
  | succ n ih =>
    obtain ⟨v, hv, hp⟩ := hbusy n (by omega)
    have hserves := ih (fun k hk => hr k (by omega)) (fun k hk => hbusy k (by omega)) hv
    exact hserves.step hp ((runFor_inputs hv 0).1.trans (hr n (by omega))) (runFor_succ_end hv ▸ hrun)

/-! ### The duration of every operation (R239) -/

theorem exec_rd_phase {off : Offset} {s t : State} (h : exec (.rd off) s = .next t) : t.phase = s.phase := by
  rw [exec, execRd] at h
  split at h <;> cases h <;> rfl

theorem exec_conv_phase {s t : State} (h : exec .conv s = .next t) : t.phase = s.phase := by
  rw [exec, execConv] at h
  split_ifs at h <;> cases h <;> rfl

/-- A generic `WR` starts no segment: its data is no command word where its offset is CMD's (R84, R102). -/
theorem exec_wr_phase {off : Offset} {data : Word} {s t : State} (hi : (Instr.wr off data).wellFormed = true)
    (h : exec (.wr off data) s = .next t) : t.phase = s.phase := by
  have locked {w : State} (hw : w.phase = s.phase) (hl : s.lockedWrite w = .next t) : t.phase = s.phase := by
    rcases lockedWrite_cases hl with ⟨-, rfl⟩ | rfl
    · exact hw
    · rfl
  cases hr : regAt off with
  | none => rw [exec_wr_of_regAt_none hr] at h; cases h; rfl
  | some r =>
    obtain rfl := offset_of_regAt hr
    cases r with
    | cmd =>
      have hillegal : isCommandWord data = false := by simpa [Instr.wellFormed, Reg.offset] using hi
      have he := dispatchCommand_of_illegal hillegal s
      rw [← exec_wr_cmd] at he
      cases he.symm.trans h
      rfl
    | clkhz => exact locked (w := { s with clkhz := data }) rfl h
    | fudgeNum => exact locked (w := { s with fudgeNum := data }) rfl h
    | fudgeDen => exact locked (w := { s with fudgeDen := data }) rfl h
    | _ => cases h; rfl

/-- An operation accepted in `s` leads, from its acceptance on, through segments of its duration to IDLE. -/
def State.Completes (s : State) (i : Instr) : Prop :=
  ∃ u gs, step s = .next u ∧ s.duration i = 1 + totalLength gs ∧ u.Leads gs fun _ t => t.phase = .idle

/-- An operation that is over with its acceptance cycle leads through no segment. -/
theorem State.Completes.of_one {s u : State} {i : Instr} (hstep : step s = .next u) (hu : u.phase = .idle)
    (hone : s.duration i = 1) : s.Completes i :=
  ⟨u, [], hstep, hone, .nil hu⟩

/-- A command that LC refuses is over with its acceptance cycle (R192). -/
theorem State.Completes.of_refused {s : State} {i : Instr} {rest : List HostItem} {c : RefuseCause}
    (ha : s.Accepts i rest) (hi : i.wellFormed = true) (he : exec i s.acceptCycle = .next (s.acceptCycle.refuse c))
    (hone : s.duration i = 1) : s.Completes i :=
  .of_one ((ha.step hi).trans he) ha.1 hone

/-- A command of one segment, admitted. -/
theorem State.Completes.of_segment {s u : State} {i : Instr} {r : Nat} (hstep : step s = .next u)
    (hp : u.phase ≠ .idle) (hrem : u.rem = BitVec.ofNat 40 r) (hfits : FitsRem r)
    (hend : ∀ m, (segmentEnd (u.afterCycles m)).phase = .idle) (hd : s.duration i = 1 + r) : s.Completes i :=
  ⟨u, [⟨u.curbit, levelOf u.pinOe u.pin, r⟩], hstep, hd, .cons hp rfl rfl hrem hfits fun m => .nil (hend m)⟩

/-- A pulse command, admitted. -/
theorem State.Completes.of_pulse {s : State} {i : Instr} {rest : List HostItem} (hinv : s.Inv) (ha : s.Accepts i rest)
    (hl : s.lc = .ready) (hi : isPulse i = true) (hd : s.duration i = 1 + ((pulseBits i).map s.bitLength).sum) :
    s.Completes i := by
  obtain ⟨u, hstep, hlead⟩ := accept_pulse hinv ha hl hi
  exact ⟨u, _, hstep, by rw [hd, State.totalLength_pulses], hlead.mono fun _ _ ht => ht.idle⟩

/-- The end of CALC is the end of `CAL`, failed or not (R126, R191). -/
theorem finishCal_phase (s : State) : (finishCal s).phase = .idle := by
  rcases finishCal_cases s with ⟨k, -, he⟩ | ⟨c, -, he⟩ <;> rw [he] <;> rfl

/-- Every operation, admitted or refused, completes in its duration. -/
theorem completes_of_accepts {s : State} {i : Instr} {rest : List HostItem} (hinv : s.Inv) (hi : i.wellFormed = true)
    (ha : s.Accepts i rest) : s.Completes i := by
  obtain ⟨w, hw⟩ := hinv.acceptCycle.exec_next i
  have hstep := (ha.step hi).trans hw
  cases i with
  | rd off => exact .of_one hstep ((exec_rd_phase hw).trans ha.1) rfl
  | wr off data => exact .of_one hstep ((exec_wr_phase hi hw).trans ha.1) rfl
  | conv => exact .of_one hstep ((exec_conv_phase hw).trans ha.1) rfl
  | cal =>
    by_cases hl : s.lc = .uncal
    · exact .of_segment ((ha.step hi).trans (if_pos hl)) (by simp) rfl (calCycles_fitsRem hinv.params)
        (fun m => finishCal_phase _) (if_pos hl)
    · exact .of_refused ha hi (if_neg hl) (if_neg hl)
  | init =>
    by_cases hl : s.lc = .cald
    · exact .of_segment ((ha.step hi).trans (if_pos hl)) (by simp) rfl hinv.setLength_fitsRem (fun m => rfl)
        (if_pos hl)
    · exact .of_refused ha hi (if_neg hl) (if_neg hl)
  | bit _ | byte _ =>
    by_cases hl : s.lc = .ready
    · exact .of_pulse hinv ha hl rfl (if_pos hl)
    · exact .of_refused ha hi (if_neg hl) (if_neg hl)
  | latch =>
    by_cases hl : s.lc = .ready
    · obtain ⟨-, -, -, -, hres⟩ := (hinv.calibrated (.inr hl)).counts_pos hinv.params
      exact .of_segment ((ha.step hi).trans (if_pos hl)) (by simp) rfl (hinv.spinLength_fitsRem hres) (fun m => rfl)
        (if_pos hl)
    · exact .of_refused ha hi (if_neg hl) (if_neg hl)

/-- Settles O32: the segments the operation leads through take its duration, and the port serves it until they end. -/
theorem durationOfEveryOperation : Obligations.DurationOfEveryOperation := by
  intro s i rest hinv hi ha hr hs
  obtain ⟨u, gs, hstep, hduration, hlead⟩ := completes_of_accepts hinv hi ha
  rw [hduration] at hr hs ⊢
  have hfirst : runFor 1 s = .next u := (runFor_one s).trans hstep
  obtain ⟨⟨t, hrun, ht⟩, -, hbusy⟩ := hlead.runFor_noStall hstep hr hs
  have hserves : ∀ d ≤ totalLength gs, ∀ v, runFor (1 + d) s = .next v → v.Serves rest := fun d hd v hv =>
    (State.Serves.of_exec ha.1 ha.2.1 ((ha.step hi).symm.trans hstep)).run
      (State.NoReset.after (fun k hk => hr k (by omega)) hfirst)
      (fun k hk => by simpa only [runFor_add hfirst] using hbusy (1 + k) (by omega) (by omega))
      ((runFor_add hfirst d).symm.trans hv)
  refine ⟨?_, fun k hk hlt => ?_⟩
  · obtain ⟨hhost, hanswer⟩ := hserves _ le_rfl t hrun
    exact ⟨t, hrun, ht, hhost, hanswer.2 ht⟩
  · obtain ⟨d, rfl⟩ := Nat.exists_eq_add_of_le hk
    obtain ⟨v, hv, hp⟩ := hbusy (1 + d) hk hlt
    obtain ⟨-, hanswer⟩ := hserves d (by omega) v hv
    exact ⟨v, hv, hp, by simpa using mt hanswer.1 hp⟩

end Sys2Proof.Machine
end

section
/-! PROOFS. The boot sequence reaches READY (R223): three configuration writes, `CAL` and `INIT`, each by the rule of its
command, and the one response each gives (R105). -/

namespace Sys2Proof.Machine

/-! ### Cycles and their responses (R105) -/

/-- `n` cycles from `s` to `t` that give the responses `xs`. -/
structure Answers (s : State) (n : Nat) (xs : List Response) (t : State) : Prop where
  run : runFor n s = .next t
  responses : responsesFor n s = xs

theorem Answers.append {s t u : State} {m n : Nat} {xs ys : List Response} (h : Answers s m xs t)
    (h' : Answers t n ys u) : Answers s (m + n) (xs ++ ys) u where
  run := (runFor_add h.run n).trans h'.run
  responses := by rw [responsesFor_add h.run, h.responses, h'.responses]

theorem Answers.of_step {s t : State} {x : Response} (h : step s = .next t) (hx : t.resp = some x) :
    Answers s 1 [x] t where
  run := (runFor_one s).trans h
  responses := by rw [responsesFor_succ_of h, hx]; rfl

/-- Cycles that answer nothing before the last one give its answer. -/
theorem responsesFor_of_silent {s t : State} {n : Nat} (hn : 0 < n)
    (hsilent : ∀ k, 0 < k → k < n → ∃ v, runFor k s = .next v ∧ v.resp = none) (hrun : runFor n s = .next t) :
    responsesFor n s = t.resp.toList := by
  induction n, hn using Nat.le_induction generalizing t with
  | base => rw [responsesFor_succ_of (runFor_one s ▸ hrun)]; exact List.append_nil _
  | succ n hn ih =>
    obtain ⟨v, hv, hnone⟩ := hsilent n hn (by omega)
    have hbefore : responsesFor n s = [] := by
      rw [ih (fun k hk hlt => hsilent k hk (by omega)) hv, hnone]; rfl
    have hlast : responsesFor 1 v = t.resp.toList := by
      rw [responsesFor_succ_of (runFor_succ_end hv ▸ hrun)]; exact List.append_nil _
    rw [responsesFor_add hv, hbefore, hlast, List.nil_append]

/-- Without reset and stalls an operation gives one response, the one its last cycle gives (R105, R239). -/
theorem Answers.of_operation {s t : State} {i : Instr} {rest : List HostItem} {x : Response} {n : Nat} (hinv : s.Inv)
    (hi : i.wellFormed = true) (ha : s.Accepts i rest) (hn : n = s.duration i) (hr : s.NoReset n) (hs : s.NoStall 1 n)
    (hrun : runFor n s = .next t) (hx : t.resp = some x) : Answers s n [x] t := by
  subst hn
  obtain ⟨u, gs, -, hduration, -⟩ := completes_of_accepts hinv hi ha
  have hpos : 0 < s.duration i := by omega
  obtain ⟨-, hbusy⟩ := durationOfEveryOperation s i rest hinv hi ha hr hs
  have hsilent : ∀ k, 0 < k → k < s.duration i → ∃ v, runFor k s = .next v ∧ v.resp = none := fun k hk hlt =>
    (hbusy k hk hlt).imp fun v ⟨hv, _, hnone⟩ => ⟨hv, hnone⟩
  exact ⟨hrun, by rw [responsesFor_of_silent hpos hsilent hrun, hx]; rfl⟩

/-! ### The boot sequence (R223) -/

/-- The answer OK to a transaction that reads nothing (R105). -/
def okResponse : Response := ⟨false, 0#32⟩

/-- The boot sequence `m` cycles after reset, while the configuration is written: nothing else has changed. -/
def State.booting (s : State) (m : Nat) (hz fn fd : Word) (q : List HostItem) (x : Option Response) : State :=
  { s.inReset.afterCycles m with clkhz := hz, fudgeNum := fn, fudgeDen := fd, host := q, resp := x }

theorem State.inReset_eq_booting (s : State) : s.inReset = s.booting 0 0#32 1#32 1#32 s.host none := rfl

theorem State.booting_rstAt (s : State) (m : Nat) (hz fn fd : Word) (q : List HostItem) (x : Option Response)
    (k : Nat) : (s.booting m hz fn fd q x).rstAt k = s.rstAt (m + k) :=
  (s.inReset.afterCycles_rstAt m k).trans (s.inReset_rstAt _)

theorem State.booting_stallAt (s : State) (m : Nat) (hz fn fd : Word) (q : List HostItem) (x : Option Response)
    (k : Nat) : (s.booting m hz fn fd q x).stallAt k = s.stallAt (m + k) :=
  s.inReset.afterCycles_stallAt m k

/-- The boot sequence goes on with the transaction presented. -/
theorem step_booting {s : State} {m : Nat} {i : Instr} (hr : s.rstAt m = false) (hi : i.wellFormed = true)
    (hz fn fd : Word) (q : List HostItem) (x : Option Response) :
    step (s.booting m hz fn fd (.txn (encode i) :: q) x) = exec i (s.booting (m + 1) hz fn fd q none) := by
  have ha : (s.booting m hz fn fd (.txn (encode i) :: q) x).Accepts i q :=
    ⟨rfl, rfl, (s.booting_rstAt ..).trans hr⟩
  rw [ha.step_eq hi, State.booting, State.booting, ← State.afterCycles_afterCycles s.inReset m 1,
    State.afterCycles_one]
  rfl

/-- The three writes are stored, since LC is UNCAL, and answered OK (R42, R102). -/
theorem boot_configures {s : State} {hz fn fd : Word} {q : List HostItem}
    (hh : s.host = present [.wr .clkhz hz, .wr .fudgeNum fn, .wr .fudgeDen fd] ++ q) (hr : s.NoReset 3) :
    Answers s.inReset 3 (List.replicate 3 okResponse) (s.booting 3 hz fn fd q (some okResponse)) := by
  rw [State.inReset_eq_booting, hh]
  have stores (m : Nat) (c a b data : Word) (q : List HostItem) :=
    (writeStoresOrIsRefused (s.booting m c a b q none) data).1 rfl
  obtain ⟨clk, -, -⟩ := stores 1 0#32 1#32 1#32 hz (present [.wr .fudgeNum fn, .wr .fudgeDen fd] ++ q)
  obtain ⟨-, num, -⟩ := stores 2 hz 1#32 1#32 fn (present [.wr .fudgeDen fd] ++ q)
  obtain ⟨-, -, den⟩ := stores 3 hz fn 1#32 fd q
  have hclk := (step_booting (hr 0 (by omega)) rfl _ _ _ _ none).trans clk
  have hnum := (step_booting (hr 1 (by omega)) rfl _ _ _ _ (some okResponse)).trans num
  have hden := (step_booting (hr 2 (by omega)) rfl _ _ _ _ (some okResponse)).trans den
  exact ((Answers.of_step hclk rfl).append (.of_step hnum rfl)).append (.of_step hden rfl)

theorem State.NoStall.after {s t : State} {a m n : Nat} (hs : s.NoStall a (m + n)) (ha : a ≤ m)
    (h : runFor m s = .next t) (b : Nat) : t.NoStall b n := fun k _ hk =>
  hs.of_inputs ha (fun j => (runFor_inputs h j).2) k (Nat.zero_le k) hk

/-- `CAL` in UNCAL, where the configuration calibrates: the results, CALD, and OK (R126). -/
theorem cal_answers {s : State} {rest : List HostItem} {k : Calibration} (hinv : s.Inv) (ha : s.Accepts .cal rest)
    (hl : s.lc = .uncal) (hk : s.calibration = .ok k) (hr : s.NoReset (1 + s.params.calCycles.val))
    (hs : s.NoStall 1 (1 + s.params.calCycles.val)) :
    Answers s (1 + s.params.calCycles.val) [okResponse]
      { (s.afterCycles (1 + s.params.calCycles.val)).storeResults k with
        host := rest, lc := .cald, resp := some okResponse } :=
  .of_operation hinv rfl ha (if_pos hl).symm hr hs
    ((runFor_cal hinv.params ha hl hr hs).trans
      (congrArg _ (finishCal_calculating_of_ok rest _ ha.1 (hinv.idle_iff.1 ha.1) hk))) rfl

/-- `INIT` in CALD: the line driven low, READY, and OK (R155). -/
theorem init_answers {s : State} {rest : List HostItem} (hinv : s.Inv) (ha : s.Accepts .init rest) (hl : s.lc = .cald)
    (hr : s.NoReset (1 + s.params.setCycles.val)) (hs : s.NoStall 1 (1 + s.params.setCycles.val)) :
    Answers s (1 + s.params.setCycles.val) [okResponse]
      { s.afterCycles (1 + s.params.setCycles.val) with
        host := rest, pin := false, pinOe := true, lc := .ready, resp := some okResponse } :=
  .of_operation hinv rfl ha (if_pos hl).symm hr hs
    (initDrivesTheLineLow s rest _ hinv.params ha hl (hinv.idle_iff.1 ha.1) rfl hr hs).1 rfl

/-- Settles O49: the configuration writes, then `CAL` with its results, then `INIT`, each from where the last ends. -/
theorem bootReachesReady : Obligations.BootReachesReady := by
  intro s hz fn fd k n hp hh hcal hn hr hs
  subst hn
  have hinv : s.inReset.Inv := State.inReset_inv hp
  have hr' : s.inReset.NoReset (3 + (1 + s.params.calCycles.val) + (1 + s.params.setCycles.val)) := fun j hj =>
    (s.inReset_rstAt j).trans (hr j hj)
  have hs' : s.inReset.NoStall 0 (3 + (1 + s.params.calCycles.val) + (1 + s.params.setCycles.val)) := hs
  have hsetup := boot_configures (q := present [.cal, .init]) hh fun j hj => hr j (by omega)
  have hru := State.NoReset.after (Nat.add_assoc .. ▸ hr') hsetup.run
  have hsu := State.NoStall.after (Nat.add_assoc .. ▸ hs') (Nat.zero_le 3) hsetup.run 1
  have hcalibrates := cal_answers (rest := present [.init]) (k := k) (runFor_inv hinv hsetup.run)
    ⟨rfl, rfl, hru 0 (by omega)⟩ rfl hcal (fun j hj => hru j (Nat.lt_add_right _ hj))
    fun j h0 hj => hsu j h0 (Nat.lt_add_right _ hj)
  have hboth := hsetup.append hcalibrates
  have hinit := init_answers (rest := []) (runFor_inv hinv hboth.run)
    ⟨rfl, rfl, hr'.after hboth.run 0 (by omega)⟩ rfl (hr'.after hboth.run) (hs'.after (Nat.zero_le _) hboth.run 1)
  have hall := hboth.append hinit
  exact ⟨⟨_, hall.run, rfl, rfl, rfl, rfl, rfl, rfl, rfl, rfl, rfl, rfl, rfl⟩, hall.responses⟩

end Sys2Proof.Machine
end

section
/-! PROOFS. Every run of transactions ends, given enough unstalled cycles (R165, R240): the host's items one by one, each
with its share of them. -/

namespace Sys2Proof.Machine

/-! ### Unstalled cycles left over -/

/-- The unstalled cycles of a run are those of its two parts. -/
theorem unstalled_after {s t : State} {m : Nat} (h : runFor m s = .next t) (n : Nat) :
    m + n - s.stallCount (m + n) = (m - s.stallCount m) + (n - t.stallCount n) := by
  have hsplit := stallCount_after h n
  have hm := s.stallCount_le m
  have hn := t.stallCount_le n
  omega

/-! ### The response comes (R105, R165) -/

/-- A run that reaches IDLE has a first IDLE cycle, and there the transaction served is answered. -/
theorem State.Serves.exists_answer {s t : State} {rest : List HostItem} {n : Nat} (h : s.Serves rest)
    (hr : s.NoReset n) (hrun : runFor n s = .next t) (hidle : t.phase = .idle) :
    ∃ m ≤ n, ∃ v, runFor m s = .next v ∧ v.phase = .idle ∧ v.resp.isSome = true ∧ v.host = rest := by
  induction n generalizing s with
  | zero => cases hrun; exact ⟨0, le_rfl, _, rfl, hidle, h.2.2 hidle, h.1⟩
  | succ n ih =>
    by_cases hp : s.phase = .idle
    · exact ⟨0, Nat.zero_le _, s, rfl, hp, h.2.2 hp, h.1⟩
    · rw [Nat.add_comm] at hrun hr
      obtain ⟨u, hu, hrest⟩ := runFor_split hrun
      obtain ⟨m, hm, v, hv, hanswered⟩ := ih (h.step hp (hr 0 (by omega)) (runFor_one s ▸ hu)) (hr.after hu) hrest
      exact ⟨1 + m, by omega, v, (runFor_add hu m).trans hv, hanswered⟩

/-- Within the bound of `EveryCommandCompletes`, or a larger one, the transaction served is answered, and the other
unstalled cycles are left. -/
theorem exists_answer_within {s : State} {rest : List HostItem} {n bound : Nat} (hbound : 32 * Params.maxRem ≤ bound)
    (hinv : s.Inv) (h : s.Serves rest) (hr : s.NoReset n) (hn : bound ≤ n - s.stallCount n) :
    ∃ m d v, n = m + d ∧ runFor m s = .next v ∧ v.phase = .idle ∧ v.resp.isSome = true ∧ v.host = rest ∧
      n - s.stallCount n ≤ bound + (d - v.stallCount d) := by
  obtain ⟨k, hk, hlast, hcount⟩ := State.exists_unstalled (Nat.lt_of_lt_of_le (by decide) hbound) hn
  have hexact : k + 1 - s.stallCount (k + 1) = bound := by rw [State.unstalled_succ, hlast, ← hcount]; rfl
  have hrk : s.NoReset (k + 1) := fun j hj => hr j (by omega)
  obtain ⟨j, t, hj, hrun, hidle⟩ := everyCommandCompletes s (k + 1) hinv hrk (hexact ▸ hbound)
  obtain ⟨m, hm, v, hv, hp, hresp, hhost⟩ := h.exists_answer (fun i hi => hrk i (by omega)) hrun hidle
  obtain ⟨d, rfl⟩ := Nat.exists_eq_add_of_le (show m ≤ n by omega)
  obtain ⟨e, he⟩ := Nat.exists_eq_add_of_le (show m ≤ k + 1 by omega)
  rw [he, unstalled_after hv e] at hexact
  exact ⟨m, d, v, rfl, hv, hp, hresp, hhost, by rw [unstalled_after hv d]; omega⟩

/-! ### The host's items one by one (R240) -/

/-- The run ends within `n` cycles. -/
def State.EndsWithin (s : State) (n : Nat) : Prop := ∃ k t, k ≤ n ∧ runFor k s = .next t ∧ t.ended = true

theorem State.EndsWithin.after {s t : State} {m n : Nat} (h : runFor m s = .next t) (ht : t.EndsWithin n) :
    s.EndsWithin (m + n) :=
  have ⟨k, v, hk, hv, hend⟩ := ht
  ⟨m + k, v, by omega, (runFor_add h k).trans hv, hend⟩

/-- With a share of the unstalled cycles for each item, the host's transactions are carried out to the last one. -/
theorem endsWithin_of_unstalled {s : State} {n bound : Nat} (hbound : 32 * Params.maxRem ≤ bound) (hinv : s.Inv)
    (hp : s.phase = .idle) (hsome : ∃ r, .txn r ∈ s.host) (hok : ∀ r, .txn r ∈ s.host → ∃ i, decode r = .ok i)
    (hr : s.NoReset n) (hn : s.host.length * (2 + bound) ≤ n - s.stallCount n) : s.EndsWithin n := by
  generalize hh : s.host = items at hsome hok hn
  induction items generalizing s n with
  | nil => obtain ⟨r, hr⟩ := hsome; cases hr
  | cons x rest ih =>
    rw [List.length_cons, Nat.succ_mul] at hn
    obtain ⟨d, rfl⟩ := Nat.exists_eq_add_of_le (show 1 ≤ n by omega)
    have hok' : ∀ r, .txn r ∈ rest → ∃ i, decode r = .ok i := fun r hr => hok r (List.mem_cons_of_mem x hr)
    cases x with
    | idle =>
      have hfirst := (runFor_one s).trans (step_of_idle (hr 0 (by omega)) hp (by simp [hh]))
      have hleft := unstalled_after hfirst d
      exact (ih (s := s.idleCycle) hinv.idleCycle hp (hr.after hfirst) (by simp [hh]) (by simpa using hsome) hok'
        (by omega)).after hfirst
    | txn r =>
      obtain ⟨i, hd⟩ := hok r (List.mem_cons_self ..)
      obtain ⟨u, hu⟩ := hinv.acceptCycle.exec_next i
      have hstep := (step_of_accept (hr 0 (by omega)) hp hh hd).trans hu
      have hfirst := (runFor_one s).trans hstep
      have hleft := unstalled_after hfirst d
      have hinvu := step_inv hinv hstep
      obtain ⟨m, e, v, rfl, hv, hidle, hresp, hhost, hrest⟩ := exists_answer_within (n := d) hbound hinvu
        (.of_exec hp hh hu) (hr.after hfirst) (by omega)
      refine State.EndsWithin.after hfirst (State.EndsWithin.after hv ?_)
      by_cases hmore : ∃ r, .txn r ∈ rest
      · exact ih (runFor_inv hinvu hv) hidle ((hr.after hfirst).after hv) hhost hmore hok' (by omega)
      · exact ⟨0, v, Nat.zero_le e, rfl, (State.ended_iff v).2 ⟨hhost ▸ not_exists.1 hmore, hidle, hresp⟩⟩

/-- Settles O58: the share of an item is two cycles and the bound of O36. -/
theorem everyRunEnds : Obligations.EveryRunEnds := fun _ _ hinv hp hsome hok hr hn =>
  endsWithin_of_unstalled le_rfl hinv hp hsome hok hr hn

end Sys2Proof.Machine
end
